-- ==== Sys2Proof/Word.lean ====
section
/-! DEFINITION. The widths of the DES core engine's values (spec 00_scope.md R9, R11, R12): every value is a bit
vector of a stated width, bit 0 the least significant. -/

namespace Sys2Proof

/-- A 64-bit block, master key or port value (00_scope.md R9, 20_memory.md R62). -/
abbrev Block := BitVec 64

/-- A 48-bit round subkey (00_scope.md R9, 10_state.md R33). -/
abbrev Subkey := BitVec 48

/-- A 32-bit half of the cipher state, L or R (00_scope.md R9, 10_state.md R36). -/
abbrev Half := BitVec 32

/-- A 28-bit half of the key schedule, C or D (00_scope.md R9, 10_state.md R37). -/
abbrev KeyHalf := BitVec 28

/-- A 4-bit opcode, the port `cmd_op` (00_scope.md R11, 30_encoding.md R80). -/
abbrev Opcode := BitVec 4

/-- A 4-bit round index (10_state.md R39). -/
abbrev Round := BitVec 4

/-- A 68-bit command word W = cmd_op ‖ cmd_data (30_encoding.md R80). -/
abbrev Command := BitVec 68

/-- The sixteen subkeys, index i the subkey of key-schedule round i (10_state.md R33). -/
abbrev Subkeys := Vector Subkey 16

end Sys2Proof
end

