-- ==== Sys2Proof/Syntax.lean ====
section
/-! DEFINITION. The commands of the block: one constructor per row of spec/opcode_table.json (30_encoding.md R83).
The table gives the illegal opcodes three rows; each is a constructor (assumption log 8). -/

namespace Sys2Proof

/-- A command word, decoded. `op` of an illegal row is the operand `op : Bits4` of 60_exceptions.md R231. -/
inductive Instr where
  /-- SETKEY data, op 0x1: set the master key and derive its subkeys (41_key_schedule.md R141). -/
  | setkey (data : Block)
  /-- ENCRYPT data, op 0x2 (43_block_cipher.md R200). -/
  | encrypt (data : Block)
  /-- DECRYPT data, op 0x3 (43_block_cipher.md R201). -/
  | decrypt (data : Block)
  /-- ILLEGAL, op 0x0 (60_exceptions.md R231). -/
  | illegalZero (data : Block)
  /-- ILLEGAL, op 0x4 to 0x7 (60_exceptions.md R231). -/
  | illegalLow (op : Opcode) (data : Block)
  /-- ILLEGAL, op 0x8 to 0xF (60_exceptions.md R231). -/
  | illegalHigh (op : Opcode) (data : Block)
deriving DecidableEq, Repr

end Sys2Proof
end

