-- ==== Sys2Proof/WellFormed.lean ====
section
/-! DEFINITION. What is checked before it is used: the opcode an illegal command carries, the entries of a
permutation table, and the S-boxes' shape. -/

namespace Sys2Proof

/-- An instruction is one the decoder can give: the opcode an illegal row carries lies in that row's range
(30_encoding.md R84; the rows 01xx and 1xxx of spec/opcode_table.json). -/
def Instr.wellFormed : Instr → Bool
  | .setkey _ => true
  | .encrypt _ => true
  | .decrypt _ => true
  | .illegalZero _ => true
  | .illegalLow op _ => op.extractLsb' 2 2 == 1#2
  | .illegalHigh op _ => op.extractLsb' 3 1 == 1#1

/-- A permutation table for an n-bit input: every entry is a DES position of the input, in [1, n]
(40_permutation_engine.md R101). -/
def tableInRange (n : Nat) (entries : List Nat) : Bool :=
  entries.all fun p => decide (1 ≤ p) && decide (p ≤ n)

/-- An S-box row is a permutation of 0..15 (42_feistel_round.md R170): sixteen entries, each value once. -/
def sboxRowIsPermutation (row : List Nat) : Bool :=
  row.length == 16 && (List.range 16).all fun v => row.count v == 1

end Sys2Proof
end

