-- ==== Sys2Proof/Decode.lean ====
section
/-! DEFINITION. Decoding a command word and encoding one (30_encoding.md R80 to R86): W = op ‖ data, op in
W[67:64], data in W[63:0]; op alone selects the command. Every 68-bit word is a command, so `decode` refuses none
(R84); a number that does not fit in 68 bits is refused by name. -/

namespace Sys2Proof

/-- Why a number is no command word. -/
inductive DecodeError where
  /-- It has a bit set above W[67]: every command has 68 bits (30_encoding.md R85). -/
  | widerThanCommand
deriving DecidableEq, Repr

/-- The field `op` of a command word, W[67:64] (30_encoding.md R80). -/
def opField (w : Command) : Opcode := w.extractLsb' 64 4

/-- The field `data` of a command word, W[63:0] (30_encoding.md R80). -/
def dataField (w : Command) : Block := w.extractLsb' 0 64

/-- W = op ‖ data (30_encoding.md R80). -/
def commandWord (op : Opcode) (data : Block) : Command := op ++ data

/-- The opcode map (30_encoding.md R83, R84). -/
def decodeFields (op : Opcode) (data : Block) : Instr :=
  if op = 0x1#4 then .setkey data
  else if op = 0x2#4 then .encrypt data
  else if op = 0x3#4 then .decrypt data
  else if op = 0x0#4 then .illegalZero data
  else if op.extractLsb' 3 1 = 0#1 then .illegalLow op data
  else .illegalHigh op data

/-- The decoder reads `op` and nothing else to select the command (30_encoding.md R85). -/
def decode (w : Command) : Instr := decodeFields (opField w) (dataField w)

/-- A command word given as a number, bit 0 its least significant. -/
def decodeNat (v : Nat) : Except DecodeError Instr :=
  if v < 2 ^ 68 then .ok (decode (BitVec.ofNat 68 v)) else .error .widerThanCommand

/-- The host's question: what the decoder reads from the low `nbits` bits of `w`, the bits above them zero. The
hardware's one word is the 68-bit command word, numbered as spec/opcode_table.json numbers it. -/
def decodeTableWord (nbits w : Nat) : Option Instr := (decodeNat (w % 2 ^ nbits)).toOption

/-- The opcode of an instruction (30_encoding.md R83). -/
def Instr.op : Instr → Opcode
  | .setkey _ => 0x1#4
  | .encrypt _ => 0x2#4
  | .decrypt _ => 0x3#4
  | .illegalZero _ => 0x0#4
  | .illegalLow op _ => op
  | .illegalHigh op _ => op

/-- The data field of an instruction (30_encoding.md R82). -/
def Instr.data : Instr → Block
  | .setkey data => data
  | .encrypt data => data
  | .decrypt data => data
  | .illegalZero data => data
  | .illegalLow _ data => data
  | .illegalHigh _ data => data

/-- The command word of an instruction (30_encoding.md R80). -/
def encode (i : Instr) : Command := commandWord i.op i.data

/-- A row of spec/opcode_table.json: a word W is of this row when (W AND mask) = pattern. -/
structure OpcodeRow where
  mnemonic : String
  mask : Command
  pattern : Command
deriving DecidableEq, Repr

/-- The row of op 0x1. -/
def rowSetkey : OpcodeRow := ⟨"SETKEY", 0xF0000000000000000#68, 0x10000000000000000#68⟩

/-- The row of op 0x2. -/
def rowEncrypt : OpcodeRow := ⟨"ENCRYPT", 0xF0000000000000000#68, 0x20000000000000000#68⟩

/-- The row of op 0x3. -/
def rowDecrypt : OpcodeRow := ⟨"DECRYPT", 0xF0000000000000000#68, 0x30000000000000000#68⟩

/-- The row of op 0x0. -/
def rowIllegalZero : OpcodeRow := ⟨"ILLEGAL", 0xF0000000000000000#68, 0x00000000000000000#68⟩

/-- The row of op 0x4 to 0x7. -/
def rowIllegalLow : OpcodeRow := ⟨"ILLEGAL", 0xC0000000000000000#68, 0x40000000000000000#68⟩

/-- The row of op 0x8 to 0xF. -/
def rowIllegalHigh : OpcodeRow := ⟨"ILLEGAL", 0x80000000000000000#68, 0x80000000000000000#68⟩

/-- spec/opcode_table.json, in its order. -/
def opcodeTable : List OpcodeRow :=
  [rowSetkey, rowEncrypt, rowDecrypt, rowIllegalZero, rowIllegalLow, rowIllegalHigh]

/-- Whether a word is of a row. -/
def rowMatches (row : OpcodeRow) (w : Command) : Bool := w &&& row.mask == row.pattern

/-- The table row an instruction stands for. -/
def Instr.row : Instr → OpcodeRow
  | .setkey _ => rowSetkey
  | .encrypt _ => rowEncrypt
  | .decrypt _ => rowDecrypt
  | .illegalZero _ => rowIllegalZero
  | .illegalLow _ _ => rowIllegalLow
  | .illegalHigh _ _ => rowIllegalHigh

end Sys2Proof
end

