-- ==== Sys2Proof/Config.lean ====
section
/-! DEFINITION. What an implementation fixes and the spec leaves open: the default key, the unspecified values of
the working registers after a reset, and the reference latencies. The constants without a body are free values:
nothing in Lean can evaluate one, so what is proved holds for every value. -/

namespace Sys2Proof.Config

/-- `DEFAULT_KEY`, the key held after reset, the spec's OPEN parameter (00_scope.md R10, 92_eei_decisions.md D13,
93_implementation_defined.md S1). Assumption log 3, safe. -/
opaque defaultKey : Block

/-- DIN after the n-th reset: unspecified (10_state.md R52, 93_implementation_defined.md S2). Assumption log 4, safe. -/
opaque freeDin : Nat → Block

/-- DIR after the n-th reset: unspecified (10_state.md R52). Assumption log 4, safe. -/
opaque freeDir : Nat → BitVec 1

/-- L after the n-th reset: unspecified (10_state.md R52). Assumption log 4, safe. -/
opaque freeL : Nat → Half

/-- R after the n-th reset: unspecified (10_state.md R52). Assumption log 4, safe. -/
opaque freeR : Nat → Half

/-- C after the n-th reset: unspecified (10_state.md R52). Assumption log 4, safe. -/
opaque freeC : Nat → KeyHalf

/-- D after the n-th reset: unspecified (10_state.md R52). Assumption log 4, safe. -/
opaque freeD : Nat → KeyHalf

/-- PRE after the n-th reset: unspecified (10_state.md R52). Assumption log 4, safe. -/
opaque freePre : Nat → Block

/-- RND after the n-th reset: unspecified (10_state.md R52). Assumption log 4, safe. -/
opaque freeRnd : Nat → Round

/-- `LAT_SETKEY` of the reference timing (70_reset_and_hazards.md R272, 41_key_schedule.md R140). -/
def latSetkey : Nat := 17

/-- `LAT_CIPHER` of the reference timing (70_reset_and_hazards.md R272, 43_block_cipher.md R197). -/
def latCipher : Nat := 19

end Sys2Proof.Config
end

