-- ==== Sys2Proof/Machine/Permutation.lean ====
section
/-! DEFINITION. The bit permutation engine and its six tables (40_permutation_engine.md). A table pairs its entries
with the checks of R101 and R103, so an ill-formed table is no table. The values are the spec's (R104 to R112;
PRESUMED by the spec itself from FIPS 46-3, assumption log 6). -/

namespace Sys2Proof.Machine

/-- The bit of v at DES position p, v[n - p] (00_scope.md R13). -/
def desBit {n : Nat} (v : BitVec n) (p : Nat) : Bool := v.getLsbD (n - p)

/-- A table of m entries for an n-bit input, every entry in [1, n] (40_permutation_engine.md R100, R101). -/
structure PermTable (n m : Nat) where
  /-- The entries in reading order; entry i is the DES position that output entry i is taken from. -/
  entries : List Nat
  length_eq : entries.length = m
  inRange : tableInRange n entries = true

/-- The primitive (40_permutation_engine.md R100): output entry i, output bit m-1-i, is the input bit at DES
position T[i]. -/
def permute {n m : Nat} (T : PermTable n m) (v : BitVec n) : BitVec m :=
  (BitVec.ofBoolListBE (T.entries.map fun p => desBit v p)).cast
    ((List.length_map _).trans T.length_eq)

/-- The entries of IP, the initial permutation (40_permutation_engine.md R104). -/
def ipEntries : List Nat :=
  [58, 50, 42, 34, 26, 18, 10, 2] ++
  [60, 52, 44, 36, 28, 20, 12, 4] ++
  [62, 54, 46, 38, 30, 22, 14, 6] ++
  [64, 56, 48, 40, 32, 24, 16, 8] ++
  [57, 49, 41, 33, 25, 17, 9, 1] ++
  [59, 51, 43, 35, 27, 19, 11, 3] ++
  [61, 53, 45, 37, 29, 21, 13, 5] ++
  [63, 55, 47, 39, 31, 23, 15, 7]

/-- IP: 64 entries, input width 64 (40_permutation_engine.md R103). -/
def ipTable : PermTable 64 64 := ⟨ipEntries, by decide, by decide⟩

/-- The entries of FP, the final permutation (40_permutation_engine.md R105). -/
def fpEntries : List Nat :=
  [40, 8, 48, 16, 56, 24, 64, 32] ++
  [39, 7, 47, 15, 55, 23, 63, 31] ++
  [38, 6, 46, 14, 54, 22, 62, 30] ++
  [37, 5, 45, 13, 53, 21, 61, 29] ++
  [36, 4, 44, 12, 52, 20, 60, 28] ++
  [35, 3, 43, 11, 51, 19, 59, 27] ++
  [34, 2, 42, 10, 50, 18, 58, 26] ++
  [33, 1, 41, 9, 49, 17, 57, 25]

/-- FP: 64 entries, input width 64 (40_permutation_engine.md R103). -/
def fpTable : PermTable 64 64 := ⟨fpEntries, by decide, by decide⟩

/-- The entries of E, the expansion (40_permutation_engine.md R107). -/
def eEntries : List Nat :=
  [32, 1, 2, 3, 4, 5] ++
  [4, 5, 6, 7, 8, 9] ++
  [8, 9, 10, 11, 12, 13] ++
  [12, 13, 14, 15, 16, 17] ++
  [16, 17, 18, 19, 20, 21] ++
  [20, 21, 22, 23, 24, 25] ++
  [24, 25, 26, 27, 28, 29] ++
  [28, 29, 30, 31, 32, 1]

/-- E: 48 entries, input width 32 (40_permutation_engine.md R103). -/
def eTable : PermTable 32 48 := ⟨eEntries, by decide, by decide⟩

/-- The entries of P, the P-permutation (40_permutation_engine.md R109). -/
def pEntries : List Nat :=
  [16, 7, 20, 21] ++
  [29, 12, 28, 17] ++
  [1, 15, 23, 26] ++
  [5, 18, 31, 10] ++
  [2, 8, 24, 14] ++
  [32, 27, 3, 9] ++
  [19, 13, 30, 6] ++
  [22, 11, 4, 25]

/-- P: 32 entries, input width 32 (40_permutation_engine.md R103). -/
def pTable : PermTable 32 32 := ⟨pEntries, by decide, by decide⟩

/-- The entries of PC1, the permuted choice 1 (40_permutation_engine.md R110). -/
def pc1Entries : List Nat :=
  [57, 49, 41, 33, 25, 17, 9] ++
  [1, 58, 50, 42, 34, 26, 18] ++
  [10, 2, 59, 51, 43, 35, 27] ++
  [19, 11, 3, 60, 52, 44, 36] ++
  [63, 55, 47, 39, 31, 23, 15] ++
  [7, 62, 54, 46, 38, 30, 22] ++
  [14, 6, 61, 53, 45, 37, 29] ++
  [21, 13, 5, 28, 20, 12, 4]

/-- PC1: 56 entries, input width 64 (40_permutation_engine.md R103). -/
def pc1Table : PermTable 64 56 := ⟨pc1Entries, by decide, by decide⟩

/-- The entries of PC2, the permuted choice 2 (40_permutation_engine.md R112). -/
def pc2Entries : List Nat :=
  [14, 17, 11, 24, 1, 5] ++
  [3, 28, 15, 6, 21, 10] ++
  [23, 19, 12, 4, 26, 8] ++
  [16, 7, 27, 20, 13, 2] ++
  [41, 52, 31, 37, 47, 55] ++
  [30, 40, 51, 45, 33, 48] ++
  [44, 49, 39, 56, 34, 53] ++
  [46, 42, 50, 36, 29, 32]

/-- PC2: 48 entries, input width 56 (40_permutation_engine.md R103). -/
def pc2Table : PermTable 56 48 := ⟨pc2Entries, by decide, by decide⟩

/-- The engine's table-select input (40_permutation_engine.md R102, R103). -/
inductive TableSelect where
  | ip | fp | e | p | pc1 | pc2
deriving DecidableEq, Repr

/-- The input width of each table (40_permutation_engine.md R103). -/
def TableSelect.inWidth : TableSelect → Nat
  | .ip => 64
  | .fp => 64
  | .e => 32
  | .p => 32
  | .pc1 => 64
  | .pc2 => 56

/-- The number of entries of each table (40_permutation_engine.md R103). -/
def TableSelect.outWidth : TableSelect → Nat
  | .ip => 64
  | .fp => 64
  | .e => 48
  | .p => 32
  | .pc1 => 56
  | .pc2 => 48

/-- The table each selection names. -/
def TableSelect.table : (t : TableSelect) → PermTable t.inWidth t.outWidth
  | .ip => ipTable
  | .fp => fpTable
  | .e => eTable
  | .p => pTable
  | .pc1 => pc1Table
  | .pc2 => pc2Table

/-- The engine as a unit: one primitive, the table selected by an input (40_permutation_engine.md R102). -/
def permutationEngine (t : TableSelect) (v : BitVec t.inWidth) : BitVec t.outWidth := permute t.table v

end Sys2Proof.Machine
end

