-- ==== Sys2Proof/Machine/KeySchedule.lean ====
section
/-! DEFINITION. The key schedule as a function (41_key_schedule.md R130 to R137). The micro-steps that compute it in
the block are in Machine/MicroSteps.lean. -/

namespace Sys2Proof.Machine

/-- Entry i of a sixteen-entry array under a 4-bit index: no index is out of range (20_memory.md R61). -/
def entry16 {α : Type} (v : Vector α 16) (i : Round) : α := v[i.toNat]'i.isLt

/-- SHIFTS, the rotation schedule (41_key_schedule.md R131). -/
def shifts : Vector Nat 16 := #v[1, 1, 2, 2, 2, 2, 2, 2, 1, 2, 2, 2, 2, 2, 2, 1]

/-- rotl_28(x, s), toward the most significant bit (41_key_schedule.md R133; the reading of "left" is assumption
log 7). -/
def rotl28 (x : KeyHalf) (s : Nat) : KeyHalf := x <<< s ||| x >>> (28 - s)

/-- C and D as the split of a 56-bit value, C the more significant half (41_key_schedule.md R132; assumption log 7). -/
def splitCD (cd : BitVec 56) : KeyHalf × KeyHalf := (cd.extractLsb' 28 28, cd.extractLsb' 0 28)

/-- The subkey of a round from that round's rotated halves: PC2 of C ‖ D (41_key_schedule.md R135). -/
def subkeyOf (c d : KeyHalf) : Subkey := permute pc2Table (c ++ d)

/-- C_i and D_i: the halves of PC1(k) after the first i rotations, which accumulate (41_key_schedule.md R132, R134).
Rounds are 0 to 15; past the sixteenth rotation nothing is rotated further. -/
def ksHalves (k : Block) : Nat → KeyHalf × KeyHalf
  | 0 => splitCD (permute pc1Table k)
  | i + 1 =>
    let cd := ksHalves k i
    if h : i < 16 then (rotl28 cd.1 shifts[i], rotl28 cd.2 shifts[i]) else cd

/-- KS(k)[i], formed after round i's rotation (41_key_schedule.md R135). -/
def subkey (k : Block) (i : Nat) : Subkey := subkeyOf (ksHalves k (i + 1)).1 (ksHalves k (i + 1)).2

/-- KS(k), the sixteen subkeys (41_key_schedule.md R137). -/
def keySchedule (k : Block) : Subkeys := Vector.ofFn fun i => subkey k i.val

end Sys2Proof.Machine
end

