-- ==== Sys2Proof/Machine/State.lean ====
section
/-! DEFINITION. The state of the block (10_state.md R30), the drive of its input ports at the coming clock edges,
the reasons a model stops, and the reset state (10_state.md R51). -/

namespace Sys2Proof.Machine

/-- The cases the hardware cannot reach (00_scope.md R16 `model_fault`). No step raises one: the tables and the
S-box indices of the block are in range by their types. Both are safe. -/
inductive Fault where
  /-- `model_fault(PermuteIndexOutOfRange)` (40_permutation_engine.md R101): raised by `permuteChecked` on a table
  with an entry outside [1, n]. Safe: it returns no value where the spec gives none. -/
  | permuteIndexOutOfRange
  /-- `model_fault(SboxIndexOutOfRange)` (42_feistel_round.md R169, 60_exceptions.md R233): raised by `sboxChecked`
  on an index outside the S-boxes. Safe: it returns no default entry. -/
  | sboxIndexOutOfRange
deriving DecidableEq, Repr

/-- Why an instruction has no meaning. No arm of `exec` answers with one: every row of the table is modelled. -/
inductive Refusal where
  /-- Raised by an arm of `exec` whose instruction has no meaning yet; safe. There is no such arm. -/
  | notModelled (mnemonic : String)
deriving DecidableEq, Repr

/-- PHASE, the sequencer state (10_state.md R40). -/
inductive Phase where
  | idle | ksLoad | ksRound | ciLoad | ciRound | ciSwap | ciOut
deriving DecidableEq, Repr

/-- What happens at one rising edge of `clk` from outside the registers: the input ports as they are sampled
(10_state.md R44), and how many micro-steps a busy block makes at this edge. One is the reference timing
(70_reset_and_hazards.md R272); zero is an edge the implementation spends inside a micro-step, and more than one a
faster implementation (93_implementation_defined.md S3; assumption log 2). -/
structure Edge where
  rst : Bool := false
  cmdValid : Bool := false
  cmdOp : Opcode := 0
  cmdData : Block := 0
  microSteps : Nat := 1
deriving DecidableEq, Repr

/-- The registers of the block (10_state.md R30), and two fields of the model's own. -/
structure State where
  /-- KEY, the current master key (10_state.md R32). -/
  key : Block
  /-- SK[0..15], the subkey file (10_state.md R33). -/
  sk : Subkeys
  /-- DIN, the block being processed (10_state.md R34). -/
  din : Block
  /-- DIR, 0 for encryption and 1 for decryption (10_state.md R35). -/
  dir : BitVec 1
  /-- L, the left half of the Feistel state (10_state.md R36). -/
  l : Half
  /-- R, the right half of the Feistel state (10_state.md R36). -/
  r : Half
  /-- C, the first half of the key schedule (10_state.md R37). -/
  c : KeyHalf
  /-- D, the second half of the key schedule (10_state.md R37). -/
  d : KeyHalf
  /-- PRE, the swapped pre-output (10_state.md R38). -/
  pre : Block
  /-- RND, the next round to be performed (10_state.md R39). -/
  rnd : Round
  /-- PHASE (10_state.md R40). -/
  phase : Phase
  /-- DOUT, the result of the last completed cipher command (10_state.md R41). -/
  dout : Block
  /-- DONE (10_state.md R42). -/
  done : Bool
  /-- ERR (10_state.md R43). -/
  err : Bool
  /-- The model's own: what the coming rising edges bring, the next one first. Past the end of the list the host
  drives `rst` = 0 and `cmd_valid` = 0 and the block keeps the reference timing (assumption log 1). -/
  edges : List Edge
  /-- The model's own: how many resets the run has taken, the index of the values a reset leaves unspecified
  (assumption log 4). -/
  resets : Nat
deriving DecidableEq, Repr

/-- The state a reset leaves (10_state.md R51, R52; 70_reset_and_hazards.md R260): the n-th reset's free values stand
in the registers the spec leaves unspecified, and the coming edges are the host's and stay. -/
def State.resetWith (n : Nat) (es : List Edge) : State where
  key := Config.defaultKey
  sk := keySchedule Config.defaultKey
  din := Config.freeDin n
  dir := Config.freeDir n
  l := Config.freeL n
  r := Config.freeR n
  c := Config.freeC n
  d := Config.freeD n
  pre := Config.freePre n
  rnd := Config.freeRnd n
  phase := .idle
  dout := 0x0000000000000000#64
  done := false
  err := false
  edges := es
  resets := n

/-- The machine right after reset (10_state.md R51), with nothing driven yet. -/
def State.reset : State := State.resetWith 0 []

end Sys2Proof.Machine
end

