-- ==== Sys2Proof/Machine/Flags.lean ====
section
/-! DEFINITION. The block's two flags and its output ports (10_state.md R42, R43, R45, R47). No computation of the
cipher or of the key schedule writes a flag. -/

namespace Sys2Proof.Machine

/-- DONE <- 0 and ERR <- 0, at the acceptance of any command (30_encoding.md R81). -/
def State.clearStatus (s : State) : State := { s with done := false, err := false }

/-- DONE as KS_ROUND leaves it: set by the last round, RND = 15, and kept by the others (41_key_schedule.md R139,
10_state.md R42). -/
def State.doneAfterKsRound (s : State) : Bool := if s.rnd = 15#4 then true else s.done

/-- `cmd_ready`: 1 iff PHASE = IDLE and `rst` = 0 (10_state.md R45). -/
def State.cmdReady (s : State) (rst : Bool) : Bool := decide (s.phase = .idle) && !rst

/-- The output ports (10_state.md R45). -/
structure PortOut where
  cmdReady : Bool
  done : Bool
  err : Bool
  dout : Block
  keyQ : Block
deriving DecidableEq, Repr

/-- What the ports show: a function of the state, and of `rst` for `cmd_ready` alone (10_state.md R45). -/
def State.ports (s : State) (rst : Bool) : PortOut where
  cmdReady := s.cmdReady rst
  done := s.done
  err := s.err
  dout := s.dout
  keyQ := s.key

end Sys2Proof.Machine
end

