-- ==== Sys2Proof/Machine/Operands.lean ====
section
/-! DEFINITION. The operand of a command and the views of a 64-bit value (20_memory.md R62 to R65; 30_encoding.md
R82). The one operand form is the 64-bit data field, used as it stands. -/

namespace Sys2Proof.Machine

/-- The operand of SETKEY, ENCRYPT and DECRYPT: the data field with no extension, scaling or shifting
(30_encoding.md R82). -/
def dataOperand (data : Block) : Block := data

/-- Byte k of a block, bits [63-8k : 56-8k], byte 0 the first character (20_memory.md R63). -/
def blockByte (v : Block) (k : Fin 8) : BitVec 8 := v.extractLsb' (56 - 8 * k.val) 8

/-- Nibble j of a block, bits [63-4j : 60-4j], nibble 0 the first hex digit (20_memory.md R63). -/
def blockNibble (v : Block) (j : Fin 16) : BitVec 4 := v.extractLsb' (60 - 4 * j.val) 4

/-- The block of eight bytes, byte 0 first (20_memory.md R63). -/
def blockOfBytes (bs : Vector (BitVec 8) 8) : Block :=
  bs[0] ++ bs[1] ++ bs[2] ++ bs[3] ++ bs[4] ++ bs[5] ++ bs[6] ++ bs[7]

/-- Sequence index s of a port value is bit 63 - s (20_memory.md R62). -/
def sequenceBit (v : Block) (s : Nat) : Bool := v.getLsbD (63 - s)

/-- The parity bits of a key: port bits 56, 48, 40, 32, 24, 16, 8 and 0 (20_memory.md R64). -/
def parityMask : Block := 0x0101010101010101#64

/-- Two keys agree in every bit but the parity bits (41_key_schedule.md R136). -/
def sameEffectiveKey (k k' : Block) : Prop := k &&& ~~~parityMask = k' &&& ~~~parityMask

end Sys2Proof.Machine
end

