-- ==== Sys2Proof/Machine/Feistel.lean ====
section
/-! DEFINITION. The Feistel round function and the eight S-boxes (42_feistel_round.md). Row and column are 2 and 4
bits, so every lookup hits an entry (R169) and no default exists. The S-box values are the spec's (R165; PRESUMED by
the spec itself from FIPS 46-3, assumption log 6); the row and column reading is R164's (assumption log 7). -/

namespace Sys2Proof.Machine

/-- An S-box: four rows of sixteen 4-bit entries (42_feistel_round.md R165). -/
abbrev SBox := Vector (Vector (BitVec 4) 16) 4

/-- SBOX[0], which FIPS 46-3 names S1 (42_feistel_round.md R165). -/
def sbox0 : SBox := #v[
  #v[14, 4, 13, 1, 2, 15, 11, 8, 3, 10, 6, 12, 5, 9, 0, 7],
  #v[0, 15, 7, 4, 14, 2, 13, 1, 10, 6, 12, 11, 9, 5, 3, 8],
  #v[4, 1, 14, 8, 13, 6, 2, 11, 15, 12, 9, 7, 3, 10, 5, 0],
  #v[15, 12, 8, 2, 4, 9, 1, 7, 5, 11, 3, 14, 10, 0, 6, 13]]

/-- SBOX[1], which FIPS 46-3 names S2 (42_feistel_round.md R165). -/
def sbox1 : SBox := #v[
  #v[15, 1, 8, 14, 6, 11, 3, 4, 9, 7, 2, 13, 12, 0, 5, 10],
  #v[3, 13, 4, 7, 15, 2, 8, 14, 12, 0, 1, 10, 6, 9, 11, 5],
  #v[0, 14, 7, 11, 10, 4, 13, 1, 5, 8, 12, 6, 9, 3, 2, 15],
  #v[13, 8, 10, 1, 3, 15, 4, 2, 11, 6, 7, 12, 0, 5, 14, 9]]

/-- SBOX[2], which FIPS 46-3 names S3 (42_feistel_round.md R165). -/
def sbox2 : SBox := #v[
  #v[10, 0, 9, 14, 6, 3, 15, 5, 1, 13, 12, 7, 11, 4, 2, 8],
  #v[13, 7, 0, 9, 3, 4, 6, 10, 2, 8, 5, 14, 12, 11, 15, 1],
  #v[13, 6, 4, 9, 8, 15, 3, 0, 11, 1, 2, 12, 5, 10, 14, 7],
  #v[1, 10, 13, 0, 6, 9, 8, 7, 4, 15, 14, 3, 11, 5, 2, 12]]

/-- SBOX[3], which FIPS 46-3 names S4 (42_feistel_round.md R165). -/
def sbox3 : SBox := #v[
  #v[7, 13, 14, 3, 0, 6, 9, 10, 1, 2, 8, 5, 11, 12, 4, 15],
  #v[13, 8, 11, 5, 6, 15, 0, 3, 4, 7, 2, 12, 1, 10, 14, 9],
  #v[10, 6, 9, 0, 12, 11, 7, 13, 15, 1, 3, 14, 5, 2, 8, 4],
  #v[3, 15, 0, 6, 10, 1, 13, 8, 9, 4, 5, 11, 12, 7, 2, 14]]

/-- SBOX[4], which FIPS 46-3 names S5 (42_feistel_round.md R165). -/
def sbox4 : SBox := #v[
  #v[2, 12, 4, 1, 7, 10, 11, 6, 8, 5, 3, 15, 13, 0, 14, 9],
  #v[14, 11, 2, 12, 4, 7, 13, 1, 5, 0, 15, 10, 3, 9, 8, 6],
  #v[4, 2, 1, 11, 10, 13, 7, 8, 15, 9, 12, 5, 6, 3, 0, 14],
  #v[11, 8, 12, 7, 1, 14, 2, 13, 6, 15, 0, 9, 10, 4, 5, 3]]

/-- SBOX[5], which FIPS 46-3 names S6 (42_feistel_round.md R165). -/
def sbox5 : SBox := #v[
  #v[12, 1, 10, 15, 9, 2, 6, 8, 0, 13, 3, 4, 14, 7, 5, 11],
  #v[10, 15, 4, 2, 7, 12, 9, 5, 6, 1, 13, 14, 0, 11, 3, 8],
  #v[9, 14, 15, 5, 2, 8, 12, 3, 7, 0, 4, 10, 1, 13, 11, 6],
  #v[4, 3, 2, 12, 9, 5, 15, 10, 11, 14, 1, 7, 6, 0, 8, 13]]

/-- SBOX[6], which FIPS 46-3 names S7 (42_feistel_round.md R165). -/
def sbox6 : SBox := #v[
  #v[4, 11, 2, 14, 15, 0, 8, 13, 3, 12, 9, 7, 5, 10, 6, 1],
  #v[13, 0, 11, 7, 4, 9, 1, 10, 14, 3, 5, 12, 2, 15, 8, 6],
  #v[1, 4, 11, 13, 12, 3, 7, 14, 10, 15, 6, 8, 0, 5, 9, 2],
  #v[6, 11, 13, 8, 1, 4, 10, 7, 9, 5, 0, 15, 14, 2, 3, 12]]

/-- SBOX[7], which FIPS 46-3 names S8 (42_feistel_round.md R165). -/
def sbox7 : SBox := #v[
  #v[13, 2, 8, 4, 6, 15, 11, 1, 10, 9, 3, 14, 5, 0, 12, 7],
  #v[1, 15, 13, 8, 10, 3, 7, 4, 12, 5, 6, 11, 0, 14, 9, 2],
  #v[7, 11, 4, 1, 9, 12, 14, 2, 0, 6, 10, 13, 15, 3, 5, 8],
  #v[2, 1, 14, 7, 4, 10, 8, 13, 15, 12, 9, 0, 3, 5, 6, 11]]

/-- SBOX[0] to SBOX[7] (42_feistel_round.md R165). -/
def sboxes : Vector SBox 8 := #v[sbox0, sbox1, sbox2, sbox3, sbox4, sbox5, sbox6, sbox7]

/-- Group j of the 48-bit S-box input, x[47-6j : 42-6j] (42_feistel_round.md R163). -/
def sboxGroup (x : BitVec 48) (j : Fin 8) : BitVec 6 := x.extractLsb' (42 - 6 * j.val) 6

/-- row = 2 * g[5] + g[0], the two outer bits (42_feistel_round.md R164). -/
def sboxRow (g : BitVec 6) : BitVec 2 := g.extractLsb' 5 1 ++ g.extractLsb' 0 1

/-- col = uint(g[4:1]), the four middle bits (42_feistel_round.md R164). -/
def sboxCol (g : BitVec 6) : BitVec 4 := g.extractLsb' 1 4

/-- The lookup SBOX[j][row][col] for a 6-bit group (42_feistel_round.md R166). -/
def sboxLookup (j : Fin 8) (g : BitVec 6) : BitVec 4 :=
  (sboxes[j.val][(sboxRow g).toNat]'(sboxRow g).isLt)[(sboxCol g).toNat]'(sboxCol g).isLt

/-- The S-box layer: y = s_0 ‖ s_1 ‖ … ‖ s_7 (42_feistel_round.md R166). -/
def sboxLayer (x : BitVec 48) : Half :=
  sboxLookup 0 (sboxGroup x 0) ++ sboxLookup 1 (sboxGroup x 1) ++ sboxLookup 2 (sboxGroup x 2) ++
    sboxLookup 3 (sboxGroup x 3) ++ sboxLookup 4 (sboxGroup x 4) ++ sboxLookup 5 (sboxGroup x 5) ++
    sboxLookup 6 (sboxGroup x 6) ++ sboxLookup 7 (sboxGroup x 7)

/-- F(r, k): expansion, key mixing, substitution, P-permutation (42_feistel_round.md R161, R162, R166 to R168). -/
def feistel (r : Half) (k : Subkey) : Half := permute pTable (sboxLayer (permute eTable r ^^^ k))

end Sys2Proof.Machine
end

