-- ==== Sys2Proof/Machine/Ops.lean ====
section
/-! DEFINITION. The named operations: the sampled edge and its consumption, the subkey file, reset, the one error the
block raises, the presentation of a command word, and the checked forms of the permutation engine and of the S-box
lookup. There is no return from an error: an error moves no control and saves nothing (60_exceptions.md R230, R238). -/

namespace Sys2Proof.Machine

/-- An edge at which the host drives nothing (assumption log 1). -/
def Edge.quiet : Edge := { }

/-- An edge at which the host presents a command (30_encoding.md R81, R87). -/
def Edge.command (op : Opcode) (data : Block) : Edge := { cmdValid := true, cmdOp := op, cmdData := data }

/-- An edge with `rst` = 1 (70_reset_and_hazards.md R260, 30_encoding.md R88 `RESET`). -/
def Edge.reset : Edge := { rst := true }

/-- The word W = cmd_op ‖ cmd_data on the ports (30_encoding.md R80). -/
def Edge.word (e : Edge) : Command := e.cmdOp ++ e.cmdData

/-- What the coming rising edge samples (10_state.md R44). -/
def State.edge (s : State) : Edge := s.edges.headD Edge.quiet

/-- The state as the edge finds it, that edge taken off the list (assumption log 1). -/
def State.consumeEdge (s : State) : State := { s with edges := s.edges.tail }

/-- SK[i] as an expression (00_scope.md R16). -/
def State.readSk (s : State) (i : Round) : Subkey := entry16 s.sk i

/-- The subkey file after SK[i] <- v (00_scope.md R16, 20_memory.md R61). -/
def State.skWith (s : State) (i : Round) (v : Subkey) : Subkeys := s.sk.set i.toNat v i.isLt

/-- Reset at an edge with `rst` = 1, whatever the phase (70_reset_and_hazards.md R260, R261). -/
def State.resetEdge (s : State) : State := State.resetWith (s.resets + 1) s.edges

/-- `raise IllegalCommand(op)`, the block's one exception: ERR <- 1. Nothing is saved and no control moves, and the
opcode is not recorded (60_exceptions.md R231, R237). -/
def State.raiseIllegalCommand (_op : Opcode) (s : State) : State := { s with err := true }

/-- The state whose very next step takes `w`: the word is on the ports at the coming edge with `cmd_valid` = 1 and
`rst` = 0, and the block is IDLE (30_encoding.md R81; assumption log 9). -/
def State.presentWord (s : State) (w : Command) : State :=
  { s with phase := .idle, edges := Edge.command (w.extractLsb' 64 4) (w.extractLsb' 0 64) :: s.edges.tail }

/-- The state whose very next step takes the number `v` as a command word; a number of more than 68 bits is no word
and nothing is presented (assumption log 10). -/
def State.presentNat (s : State) (v : Nat) : State :=
  if v < 2 ^ 68 then s.presentWord (BitVec.ofNat 68 v) else s

/-- The permutation engine on any table: it refuses one with an entry outside [1, n] (40_permutation_engine.md R101,
93_implementation_defined.md U6). -/
def permuteChecked {n : Nat} (entries : List Nat) (v : BitVec n) : Except Fault (BitVec entries.length) :=
  if h : tableInRange n entries = true then .ok (permute ⟨entries, rfl, h⟩ v) else .error .permuteIndexOutOfRange

/-- SBOX[j][row][col] for indices of any size: out of range it faults and gives no default entry
(42_feistel_round.md R169, 93_implementation_defined.md U7). -/
def sboxChecked (j row col : Nat) : Except Fault (BitVec 4) :=
  if h : j < 8 ∧ row < 4 ∧ col < 16 then
    .ok ((sboxes[j]'h.1)[row]'h.2.1)[col]
  else .error .sboxIndexOutOfRange

end Sys2Proof.Machine
end

