-- ==== Sys2Proof/Machine/CipherCommands.lean ====
section
/-! DEFINITION. ENCRYPT and DECRYPT (43_block_cipher.md R200, R201): what their accepting micro-step does. The
micro-steps that follow are CI_LOAD, sixteen CI_ROUND, CI_SWAP and CI_OUT (Machine/MicroSteps.lean). -/

namespace Sys2Proof.Machine

/-- The acceptance of a cipher command: DIN <- data, DIR <- dir and PHASE <- CI_LOAD, with DONE and ERR cleared
(43_block_cipher.md R200, R201; 30_encoding.md R81). -/
def State.acceptCipher (dir : BitVec 1) (data : Block) (s : State) : State :=
  { s.clearStatus with din := dataOperand data, dir := dir, phase := .ciLoad }

/-- ENCRYPT data: DIR <- 0 (43_block_cipher.md R200). -/
def execEncrypt (data : Block) (s : State) : Host.Outcome State Fault Refusal := .next (s.acceptCipher 0#1 data)

/-- DECRYPT data: DIR <- 1 (43_block_cipher.md R201). -/
def execDecrypt (data : Block) (s : State) : Host.Outcome State Fault Refusal := .next (s.acceptCipher 1#1 data)

end Sys2Proof.Machine
end

