-- ==== Sys2Proof/Machine/IllegalCommands.lean ====
section
/-! DEFINITION. The illegal commands (60_exceptions.md R231): accepted, with DONE <- 0 and ERR <- 1 and nothing else
changed. The data is ignored (30_encoding.md R86), and the opcode is not recorded. -/

namespace Sys2Proof.Machine

/-- ILLEGAL, op 0x0 (60_exceptions.md R231). -/
def execIllegalZero (_data : Block) (s : State) : Host.Outcome State Fault Refusal :=
  .next (s.clearStatus.raiseIllegalCommand 0x0#4)

/-- ILLEGAL, op 0x4 to 0x7 (60_exceptions.md R231). -/
def execIllegalLow (op : Opcode) (_data : Block) (s : State) : Host.Outcome State Fault Refusal :=
  .next (s.clearStatus.raiseIllegalCommand op)

/-- ILLEGAL, op 0x8 to 0xF (60_exceptions.md R231). -/
def execIllegalHigh (op : Opcode) (_data : Block) (s : State) : Host.Outcome State Fault Refusal :=
  .next (s.clearStatus.raiseIllegalCommand op)

end Sys2Proof.Machine
end

