-- ==== Sys2Proof/Machine/KeyCommand.lean ====
section
/-! DEFINITION. SETKEY (41_key_schedule.md R141): what its accepting micro-step does. The micro-steps that follow are
KS_LOAD and sixteen KS_ROUND (Machine/MicroSteps.lean). -/

namespace Sys2Proof.Machine

/-- SETKEY data: KEY <- data and PHASE <- KS_LOAD, with DONE and ERR cleared (41_key_schedule.md R141;
30_encoding.md R81). Every 64-bit value is a legal key, and its parity bits are kept as they are. -/
def execSetkey (data : Block) (s : State) : Host.Outcome State Fault Refusal :=
  .next { s.clearStatus with key := dataOperand data, phase := .ksLoad }

end Sys2Proof.Machine
end

