-- ==== Sys2Proof/Machine/Dispatch.lean ====
section
/-! DEFINITION. The dispatch of an accepted command to its meaning (30_encoding.md R81, R83). -/

namespace Sys2Proof.Machine

def exec (i : Instr) (s : State) : Host.Outcome State Fault Refusal :=
  match i with
  | .setkey data => Sys2Proof.Machine.execSetkey data s
  | .encrypt data => Sys2Proof.Machine.execEncrypt data s
  | .decrypt data => Sys2Proof.Machine.execDecrypt data s
  | .illegalZero data => Sys2Proof.Machine.execIllegalZero data s
  | .illegalLow op data => Sys2Proof.Machine.execIllegalLow op data s
  | .illegalHigh op data => Sys2Proof.Machine.execIllegalHigh op data s

end Sys2Proof.Machine
end

