-- ==== Sys2Proof/Machine/Cipher.lean ====
section
/-! DEFINITION. The whole-block functions (43_block_cipher.md R190, R191, R194, R199). The micro-steps that compute
them in the block are in Machine/MicroSteps.lean. -/

namespace Sys2Proof.Machine

/-- order(r): the subkey used in round r, r for DIR = 0 and 15 - r for DIR = 1 (43_block_cipher.md R191). -/
def subkeyOrder (dir : BitVec 1) (r : Round) : Round := if dir = 0#1 then r else 15#4 - r

/-- L and R as the split of a 64-bit value, L the more significant half (43_block_cipher.md R192). -/
def splitLR (v : Block) : Half × Half := (v.extractLsb' 32 32, v.extractLsb' 0 32)

/-- One round: L' = R and R' = L ^ F(R, k) (43_block_cipher.md R193, R194). -/
def cipherRound (lr : Half × Half) (k : Subkey) : Half × Half := (lr.2, lr.1 ^^^ feistel lr.2 k)

/-- L_r and R_r: the halves of IP(m) after the first r rounds (43_block_cipher.md R192, R194). -/
def cipherHalves (m : Block) (K : Subkeys) (dir : BitVec 1) : Nat → Half × Half
  | 0 => splitLR (permute ipTable m)
  | r + 1 => cipherRound (cipherHalves m K dir r) (entry16 K (subkeyOrder dir (BitVec.ofNat 4 r)))

/-- The pre-output R ‖ L (43_block_cipher.md R195; 90_conflicts.md C1). -/
def preOutput (lr : Half × Half) : Block := lr.2 ++ lr.1

/-- cipher(m, K, dir) (43_block_cipher.md R199). -/
def cipher (m : Block) (K : Subkeys) (dir : BitVec 1) : Block :=
  permute fpTable (preOutput (cipherHalves m K dir 16))

/-- DES_enc(k, m) (43_block_cipher.md R199). -/
def desEnc (k m : Block) : Block := cipher m (keySchedule k) 0#1

/-- DES_dec(k, c) (43_block_cipher.md R199). -/
def desDec (k c : Block) : Block := cipher c (keySchedule k) 1#1

end Sys2Proof.Machine
end

