-- ==== Sys2Proof/Machine/MicroSteps.lean ====
section
/-! DEFINITION. The micro-steps of the sequencer (41_key_schedule.md R138, R139; 43_block_cipher.md R192 to R196).
Every right-hand side reads the state before the micro-step (00_scope.md R16). None of them raises anything. -/

namespace Sys2Proof.Machine

/-- KS_LOAD (41_key_schedule.md R138). -/
def ksLoad (s : State) : State :=
  let cd := splitCD (permute pc1Table s.key)
  { s with c := cd.1, d := cd.2, rnd := 0#4, phase := .ksRound }

/-- KS_ROUND (41_key_schedule.md R139): at RND = 15 it leaves the phase and sets DONE instead of counting on
(10_state.md R39). -/
def ksRound (s : State) : State :=
  let c1 := rotl28 s.c (entry16 shifts s.rnd)
  let d1 := rotl28 s.d (entry16 shifts s.rnd)
  { s with
    c := c1
    d := d1
    sk := s.skWith s.rnd (subkeyOf c1 d1)
    rnd := if s.rnd = 15#4 then s.rnd else s.rnd + 1#4
    phase := if s.rnd = 15#4 then .idle else s.phase
    done := s.doneAfterKsRound }

/-- CI_LOAD (43_block_cipher.md R192). -/
def ciLoad (s : State) : State :=
  let lr := splitLR (permute ipTable s.din)
  { s with l := lr.1, r := lr.2, rnd := 0#4, phase := .ciRound }

/-- CI_ROUND (43_block_cipher.md R193): at RND = 15 it goes to CI_SWAP instead of counting on (10_state.md R39). -/
def ciRound (s : State) : State :=
  let lr := cipherRound (s.l, s.r) (s.readSk (subkeyOrder s.dir s.rnd))
  { s with
    l := lr.1
    r := lr.2
    rnd := if s.rnd = 15#4 then s.rnd else s.rnd + 1#4
    phase := if s.rnd = 15#4 then .ciSwap else s.phase }

/-- CI_SWAP (43_block_cipher.md R195; 90_conflicts.md C1). -/
def ciSwap (s : State) : State := { s with pre := preOutput (s.l, s.r), phase := .ciOut }

/-- CI_OUT (43_block_cipher.md R196). -/
def ciOut (s : State) : State :=
  { s with dout := permute fpTable s.pre, done := true, phase := .idle }

/-- The micro-step PHASE selects (10_state.md R53); IDLE has none. -/
def microStep (s : State) : State :=
  match s.phase with
  | .idle => s
  | .ksLoad => ksLoad s
  | .ksRound => ksRound s
  | .ciLoad => ciLoad s
  | .ciRound => ciRound s
  | .ciSwap => ciSwap s
  | .ciOut => ciOut s

/-- The micro-steps of one edge: one in the reference timing, and none past IDLE (70_reset_and_hazards.md R272;
assumption log 2). -/
def runMicroSteps : Nat → State → State
  | 0, s => s
  | n + 1, s => runMicroSteps n (microStep s)

end Sys2Proof.Machine
end

