-- ==== Sys2Proof/Machine/Sequencer.lean ====
section
/-! DEFINITION. What one rising edge of `clk` does (10_state.md R53; 60_exceptions.md R236). -/

namespace Sys2Proof.Machine

/-- An edge in PHASE = IDLE with `rst` = 0: a presented command is accepted, and without one nothing changes
(10_state.md R53, 30_encoding.md R81). -/
def idleEdge (e : Edge) (s : State) : Host.Outcome State Fault Refusal :=
  if e.cmdValid = true then exec (decode e.word) s else .next s

/-- One rising edge: reset beats everything; an IDLE block may accept a command; a busy block makes its micro-steps
and does not look at the command ports (10_state.md R53, 60_exceptions.md R236, 70_reset_and_hazards.md R265). -/
def clockEdge (s : State) : Host.Outcome State Fault Refusal :=
  if s.edge.rst = true then .next s.consumeEdge.resetEdge
  else if s.phase = .idle then idleEdge s.edge s.consumeEdge
  else .next (runMicroSteps s.edge.microSteps s.consumeEdge)

end Sys2Proof.Machine
end

