-- ==== Sys2Proof/Machine/Step.lean ====
section
/-! DEFINITION. The machine's step is one rising edge of `clk` (10_state.md R53), and how the host places a command
so that the very next step takes it. -/

namespace Sys2Proof.Machine

/-- One step of the machine (10_state.md R53). -/
def step (s : State) : Host.Outcome State Fault Refusal := clockEdge s

/-- The state whose very next step accepts the command word held in the low `nbits` bits of `w` (assumption log 9). -/
def State.withFetchWord (s : State) (nbits w : Nat) : State := s.presentNat (w % 2 ^ nbits)

end Sys2Proof.Machine
end

