-- ==== Sys2Proof/Machine/Script.lean ====
section
/-! DEFINITION. Host command scripts (30_encoding.md R87 to R89) and their run against the block
(70_reset_and_hazards.md R271): the text form, its expansion into command words and host actions, and the host that
holds each command until the block accepts it. The block itself has no part of this: everything here drives `step`
through the input ports. The choices of assumption logs 12 and 13 are made here. -/

namespace Sys2Proof.Machine

/-- Why a script line is refused. A refusal is the transcriber's, never a block action (60_exceptions.md R233). -/
inductive ScriptError where
  /-- A character code of `ENCRYPT.A` or `DECRYPT.A` lies above 255 (30_encoding.md R88). -/
  | characterAbove255
  /-- `ENCRYPT.A` or `DECRYPT.A` without exactly eight characters: no quote closes the text after the eighth
  (30_encoding.md R88). -/
  | notEightCharacters
  /-- A hex literal with a wrong digit or not exactly the digits its line shows (30_encoding.md R87). -/
  | badHexLiteral
  /-- A line that ends before the quote that closes its text (30_encoding.md R88). -/
  | unclosedText
  /-- None of the forms of 30_encoding.md R87 and R88. -/
  | unknownLine
deriving DecidableEq, Repr

/-- The output ports an `EXPECT` names (30_encoding.md R88). -/
inductive ScriptPort where
  | done | err | dout | keyQ
deriving DecidableEq, Repr

/-- A line as it is written (30_encoding.md R87, R88). -/
inductive ScriptForm where
  | setkey (data : Block)
  | encrypt (data : Block)
  | decrypt (data : Block)
  | cmd (op : Opcode) (data : Block)
  | encryptText (text : List Char)
  | decryptText (text : List Char)
  | wait
  | reset
  | expect (port : ScriptPort) (value : Block)
deriving DecidableEq, Repr

/-- What a line makes the host do (30_encoding.md R87, R88). -/
inductive ScriptLine where
  /-- Present the word with `cmd_valid` = 1 until the block accepts it (30_encoding.md R87). -/
  | present (w : Command)
  /-- Wait until `cmd_ready` = 1 (30_encoding.md R88). -/
  | wait
  /-- Drive `rst` = 1 for one rising edge (30_encoding.md R88). -/
  | reset
  /-- Compare an output port with a value; not a block action (30_encoding.md R88). -/
  | expect (port : ScriptPort) (value : Block)
deriving DecidableEq, Repr

/-- The byte of a character, refused above 255 (30_encoding.md R88). -/
def charByte (ch : Char) : Except ScriptError (BitVec 8) :=
  if ch.toNat ≤ 255 then .ok (BitVec.ofNat 8 ch.toNat) else .error .characterAbove255

/-- Eight characters' codes as bytes 0 to 7 of a block (30_encoding.md R88, 20_memory.md R63). -/
def textBlock (text : List Char) : Except ScriptError Block :=
  match text with
  | [c0, c1, c2, c3, c4, c5, c6, c7] => do
    let b0 ← charByte c0
    let b1 ← charByte c1
    let b2 ← charByte c2
    let b3 ← charByte c3
    let b4 ← charByte c4
    let b5 ← charByte c5
    let b6 ← charByte c6
    let b7 ← charByte c7
    return blockOfBytes #v[b0, b1, b2, b3, b4, b5, b6, b7]
  | _ => .error .notEightCharacters

/-- The expansion of a line (30_encoding.md R87, R88). -/
def ScriptForm.expand : ScriptForm → Except ScriptError ScriptLine
  | .setkey data => .ok (.present (commandWord 0x1#4 data))
  | .encrypt data => .ok (.present (commandWord 0x2#4 data))
  | .decrypt data => .ok (.present (commandWord 0x3#4 data))
  | .cmd op data => .ok (.present (commandWord op data))
  | .encryptText text => (textBlock text).map fun h => .present (commandWord 0x2#4 h)
  | .decryptText text => (textBlock text).map fun h => .present (commandWord 0x3#4 h)
  | .wait => .ok .wait
  | .reset => .ok .reset
  | .expect port value => .ok (.expect port value)

/-- The word of a line; host actions have none (30_encoding.md R89). -/
def ScriptLine.word? : ScriptLine → Option Command
  | .present w => some w
  | .wait => none
  | .reset => none
  | .expect _ _ => none

/-- The encoding of a script: its words in order (30_encoding.md R89). -/
def encodeScript (lines : List ScriptLine) : List Command := lines.filterMap ScriptLine.word?

/-! ### Text -/

/-- A hex digit in upper case (30_encoding.md R87). -/
def hexDigit (v : BitVec 4) : Char :=
  if v.toNat < 10 then Char.ofNat (48 + v.toNat) else Char.ofNat (55 + v.toNat)

/-- The value of a hex digit, in either case (30_encoding.md R87). -/
def hexValue (ch : Char) : Option Nat :=
  if 48 ≤ ch.toNat ∧ ch.toNat ≤ 57 then some (ch.toNat - 48)
  else if 65 ≤ ch.toNat ∧ ch.toNat ≤ 70 then some (ch.toNat - 55)
  else if 97 ≤ ch.toNat ∧ ch.toNat ≤ 102 then some (ch.toNat - 87)
  else none

/-- The value of a string of hex digits, the first the most significant. -/
def hexNumber : Nat → List Char → Option Nat
  | acc, [] => some acc
  | acc, ch :: rest => (hexValue ch).bind fun v => hexNumber (16 * acc + v) rest

/-- A hex literal of exactly n digits (30_encoding.md R87). -/
def hexLiteral (n : Nat) (cs : List Char) : Except ScriptError Nat :=
  if cs.length = n then
    match hexNumber 0 cs with
    | some v => .ok v
    | none => .error .badHexLiteral
  else .error .badHexLiteral

/-- A 64-bit literal, 16 hex digits. -/
def blockLiteral (cs : List Char) : Except ScriptError Block := (hexLiteral 16 cs).map (BitVec.ofNat 64)

/-- The hex digits of a block, digit j its nibble j (20_memory.md R63). -/
def blockText (v : Block) : List Char := (List.finRange 16).map fun j => hexDigit (blockNibble v j)

/-- A command word as 17 hex digits, the field `op` set off by an underscore (30_encoding.md R80, R89). -/
def wordText (w : Command) : List Char := hexDigit (opField w) :: '_' :: blockText (dataField w)

/-- The command word of a text of that form (30_encoding.md R80). -/
def parseWord (cs : List Char) : Except ScriptError Command :=
  match cs with
  | o :: '_' :: rest => do
    let op ← hexLiteral 1 [o]
    let data ← blockLiteral rest
    return commandWord (BitVec.ofNat 4 op) data
  | _ => .error .badHexLiteral

/-- The pieces of a line. -/
inductive ScriptToken where
  | word (cs : List Char)
  | text (cs : List Char)
  | comma
  | equals
deriving DecidableEq, Repr

/-- The double quote that encloses the characters of `ENCRYPT.A` and `DECRYPT.A`. -/
def quoteChar : Char := Char.ofNat 34

/-- The pieces so far, with the word being read if there is one. -/
def closeWord (cur : List Char) (ts : List ScriptToken) : List ScriptToken :=
  if cur = [] then ts else ts ++ [.word cur]

/-- A line in pieces: `;` outside a quoted text starts a comment (30_encoding.md R87). A quoted text is the eight
characters after its opening quote, whichever they are, a quote or a `;` among them, and then the closing quote
(30_encoding.md R88). DESIGN CHOICE (assumption log 12): white space only separates two words, so the opening quote, the
closing quote, the comma, the equals sign and the `;` need none beside them, and a line may begin and end with some. The
first argument says whether a quoted text is open, the second holds what is read of the current piece. -/
def tokenize : Bool → List Char → List ScriptToken → List Char → Except ScriptError (List ScriptToken)
  | true, _, _, [] => .error .unclosedText
  | false, cur, ts, [] => .ok (closeWord cur ts)
  | true, cur, ts, ch :: rest =>
    if cur.length < 8 then tokenize true (cur ++ [ch]) ts rest
    else if ch = quoteChar then tokenize false [] (ts ++ [.text cur]) rest
    else .error .notEightCharacters
  | false, cur, ts, ch :: rest =>
    if ch = ';' then .ok (closeWord cur ts)
    else if ch = quoteChar then tokenize true [] (closeWord cur ts) rest
    else if ch = ',' then tokenize false [] (closeWord cur ts ++ [.comma]) rest
    else if ch = '=' then tokenize false [] (closeWord cur ts ++ [.equals]) rest
    else if ch.isWhitespace then tokenize false [] (closeWord cur ts) rest
    else tokenize false (cur ++ [ch]) ts rest

/-- The value of an `EXPECT`: 16 hex digits for `dout` and `key_q`, one digit 0 or 1 for `done` and `err`
(assumption log 12). -/
def expectForm (name value : List Char) : Except ScriptError ScriptForm :=
  if name = ['d', 'o', 'u', 't'] then (blockLiteral value).map (.expect .dout)
  else if name = ['k', 'e', 'y', '_', 'q'] then (blockLiteral value).map (.expect .keyQ)
  else if value = ['0'] ∨ value = ['1'] then
    let v : Block := if value = ['1'] then 1#64 else 0#64
    if name = ['d', 'o', 'n', 'e'] then .ok (.expect .done v)
    else if name = ['e', 'r', 'r'] then .ok (.expect .err v)
    else .error .unknownLine
  else .error .unknownLine

/-- A line from its pieces; an empty line is none (30_encoding.md R87, R88). -/
def parseTokens : List ScriptToken → Except ScriptError (Option ScriptForm)
  | [] => .ok none
  | [.word k] =>
    if k = ['W', 'A', 'I', 'T'] then .ok (some .wait)
    else if k = ['R', 'E', 'S', 'E', 'T'] then .ok (some .reset)
    else .error .unknownLine
  | [.word k, .word h] =>
    if k = ['S', 'E', 'T', 'K', 'E', 'Y'] then (blockLiteral h).map fun v => some (.setkey v)
    else if k = ['E', 'N', 'C', 'R', 'Y', 'P', 'T'] then (blockLiteral h).map fun v => some (.encrypt v)
    else if k = ['D', 'E', 'C', 'R', 'Y', 'P', 'T'] then (blockLiteral h).map fun v => some (.decrypt v)
    else .error .unknownLine
  | [.word k, .text t] =>
    if k = ['E', 'N', 'C', 'R', 'Y', 'P', 'T', '.', 'A'] then .ok (some (.encryptText t))
    else if k = ['D', 'E', 'C', 'R', 'Y', 'P', 'T', '.', 'A'] then .ok (some (.decryptText t))
    else .error .unknownLine
  | [.word k, .word o, .comma, .word h] =>
    if k = ['C', 'M', 'D'] then do
      let op ← hexLiteral 1 o
      let data ← blockLiteral h
      return some (.cmd (BitVec.ofNat 4 op) data)
    else .error .unknownLine
  | [.word k, .word name, .equals, .word value] =>
    if k = ['E', 'X', 'P', 'E', 'C', 'T'] then (expectForm name value).map some else .error .unknownLine
  | _ => .error .unknownLine

/-- One line of text (30_encoding.md R87, R88). -/
def parseLine (cs : List Char) : Except ScriptError (Option ScriptForm) := do
  let ts ← tokenize false [] [] cs
  parseTokens ts

/-- A script: its lines parsed and expanded in order; a line in error refuses the script. -/
def parseScript : List (List Char) → Except ScriptError (List ScriptLine)
  | [] => .ok []
  | cs :: rest => do
    let form ← parseLine cs
    let lines ← parseScript rest
    match form with
    | none => return lines
    | some f => do
      let line ← f.expand
      return line :: lines

/-! ### The run -/

/-- A script under way: the block, the lines left, the micro-steps of the coming edges (one where unlisted), and the
outcome of each `EXPECT` so far. -/
structure ScriptRun where
  state : State
  lines : List ScriptLine
  pace : List Nat
  checks : List Bool
deriving DecidableEq, Repr

/-- The value of an output port as a number (10_state.md R45). -/
def State.readPort (s : State) : ScriptPort → Block
  | .done => if (s.ports false).done = true then 1#64 else 0#64
  | .err => if (s.ports false).err = true then 1#64 else 0#64
  | .dout => (s.ports false).dout
  | .keyQ => (s.ports false).keyQ

/-- The lines that take no edge: an `EXPECT`, and a `WAIT` when `cmd_ready` = 1 (30_encoding.md R88; assumption
log 13). What is left starts with a line that takes an edge, or is empty. -/
def settleLines (s : State) : List ScriptLine → List Bool → List ScriptLine × List Bool
  | .wait :: rest, checks =>
    if s.cmdReady false = true then settleLines s rest checks else (.wait :: rest, checks)
  | .expect port value :: rest, checks => settleLines s rest (checks ++ [decide (s.readPort port = value)])
  | lines, checks => (lines, checks)

/-- What the host drives at the coming edge, and the lines left after it: a command is held until an edge with
`cmd_ready` = 1 (30_encoding.md R87, 70_reset_and_hazards.md R265). -/
def hostDrive (s : State) : List ScriptLine → Edge × List ScriptLine
  | .present w :: rest =>
    (Edge.command (opField w) (dataField w), if s.cmdReady false = true then rest else .present w :: rest)
  | .reset :: rest => (Edge.reset, rest)
  | lines => (Edge.quiet, lines)

/-- The run has ended: no line is left and PHASE = IDLE (70_reset_and_hazards.md R271). -/
def ScriptRun.ended (run : ScriptRun) : Bool :=
  (settleLines run.state run.lines run.checks).1 = [] && run.state.cmdReady false

/-- The run with its edge-free lines done. -/
def ScriptRun.settled (run : ScriptRun) : ScriptRun :=
  let ls := settleLines run.state run.lines run.checks
  { run with lines := ls.1, checks := ls.2 }

/-- One rising edge of a script's run: the host drives the ports and the block steps (10_state.md R53). -/
def scriptEdge (run : ScriptRun) : Host.Outcome ScriptRun Fault Refusal :=
  let now := run.settled
  let drive := hostDrive now.state now.lines
  let e := { drive.1 with microSteps := now.pace.headD 1 }
  match step { now.state with edges := [e] } with
  | .next s => .next { state := s, lines := drive.2, pace := now.pace.tail, checks := now.checks }
  | .fault f => .fault f
  | .refused f => .refused f

/-- A script's run for at most n edges, stopping where it ends (70_reset_and_hazards.md R271). -/
def runScript : Nat → ScriptRun → Host.Outcome ScriptRun Fault Refusal
  | 0, run => .next run.settled
  | n + 1, run =>
    if run.ended = true then .next run.settled
    else
      match scriptEdge run with
      | .next run' => runScript n run'
      | .fault f => .fault f
      | .refused f => .refused f

end Sys2Proof.Machine
end

