-- ==== Sys2Proof/Machine/Transaction.lean ====
section
/-! DEFINITION. The transaction-level model of the block (43_block_cipher.md R203): each accepted command applied whole,
and a reset between any two of its micro-steps discarding it (70_reset_and_hazards.md R261). The machine's step is the
micro-step model; this one is what it must agree with at every IDLE state. -/

namespace Sys2Proof.Machine

/-- The state after a whole SETKEY, from the state before it (41_key_schedule.md R141). -/
def State.afterSetkey (s : State) (data : Block) : State :=
  { s with
    key := data
    sk := keySchedule data
    c := (ksHalves data 0).1
    d := (ksHalves data 0).2
    rnd := 15#4
    phase := .idle
    done := true
    err := false }

/-- The state after a whole ENCRYPT (dir = 0) or DECRYPT (dir = 1), from the state before it (43_block_cipher.md
R200, R201). -/
def State.afterCipher (s : State) (dir : BitVec 1) (data : Block) : State :=
  { s with
    din := data
    dir := dir
    l := (cipherHalves data s.sk dir 16).1
    r := (cipherHalves data s.sk dir 16).2
    pre := (cipherHalves data s.sk dir 16).2 ++ (cipherHalves data s.sk dir 16).1
    rnd := 15#4
    phase := .idle
    dout := cipher data s.sk dir
    done := true
    err := false }

/-- An accepted command applied whole (43_block_cipher.md R203; 60_exceptions.md R231 for the illegal ones). -/
def State.transact (s : State) : Instr → State
  | .setkey data => s.afterSetkey data
  | .encrypt data => s.afterCipher 0#1 data
  | .decrypt data => s.afterCipher 1#1 data
  | .illegalZero _ => { s with done := false, err := true }
  | .illegalLow _ _ => { s with done := false, err := true }
  | .illegalHigh _ _ => { s with done := false, err := true }

/-- What a drive of the ports makes the block do, in whole commands: an accepted command that runs to its end, or a
reset, with the command in progress that it discards, if any (43_block_cipher.md R203; 70_reset_and_hazards.md R261). -/
inductive Transaction where
  | complete (i : Instr)
  | reset (cut : Option Instr)
deriving DecidableEq, Repr

/-- A transaction applied whole. A reset leaves the reset state: the command it cuts, not yet applied, is discarded
(70_reset_and_hazards.md R261). -/
def State.applyTransaction (s : State) : Transaction → State
  | .complete i => s.transact i
  | .reset _ => s.resetEdge

/-- A history: transactions applied in order, each whole (20_memory.md R70). -/
def State.transactAll (s : State) (ts : List Transaction) : State := ts.foldl State.applyTransaction s

/-- The micro-steps a command takes after its acceptance (41_key_schedule.md R140, 43_block_cipher.md R197,
60_exceptions.md R231). -/
def commandMicroSteps : Instr → Nat
  | .setkey _ => 17
  | .encrypt _ => 19
  | .decrypt _ => 19
  | .illegalZero _ => 0
  | .illegalLow _ _ => 0
  | .illegalHigh _ _ => 0

/-- An accepted command that has not completed, and the micro-steps it still takes. -/
structure InProgress where
  command : Instr
  left : Nat
deriving DecidableEq, Repr

/-- What the acceptance of a command makes of it: an illegal command is complete at once (60_exceptions.md R231). -/
def acceptTransaction (i : Instr) : List Transaction × Option InProgress :=
  if commandMicroSteps i = 0 then ([.complete i], none) else ([], some ⟨i, commandMicroSteps i⟩)

/-- The transactions of one edge, and the command in progress after it. Reset comes first and can fall between any two
micro-steps, a busy block does not look at the command ports, and a command completes with its last micro-step
(10_state.md R53, 43_block_cipher.md R203). -/
def transactEdge (p : Option InProgress) (e : Edge) : List Transaction × Option InProgress :=
  if e.rst = true then ([.reset (p.map InProgress.command)], none)
  else
    match p with
    | none => if e.cmdValid = true then acceptTransaction (decode e.word) else ([], none)
    | some q =>
      if q.left ≤ e.microSteps then ([.complete q.command], none)
      else ([], some { q with left := q.left - e.microSteps })

/-- The transactions of a drive of the ports in order, and the command in progress after its last edge. -/
def transactionsOf (p : Option InProgress) : List Edge → List Transaction × Option InProgress
  | [] => ([], p)
  | e :: es =>
    let now := transactEdge p e
    let later := transactionsOf now.2 es
    (now.1 ++ later.1, later.2)

end Sys2Proof.Machine
end

