-- ==== Sys2Proof/Safety.lean ====
section
/-! DEFINITION. The terms the claims use: runs of several edges, edges at which the host drives nothing, the
invariants of the machine, and what two states must share for the ports never to tell them apart. -/

namespace Sys2Proof.Machine

/-- The run of n rising edges. -/
def runSteps (n : Nat) (s : State) : Host.Outcome State Fault Refusal := Host.Core.run Sys2Proof.core n s

/-- The state with its coming edges replaced. -/
def State.drivenBy (s : State) (es : List Edge) : State := { s with edges := es }

/-- Neither reset nor a command at any of these edges. -/
def quietEdges (es : List Edge) : Prop := ∀ e ∈ es, e.rst = false ∧ e.cmdValid = false

/-- The reference timing with no reset at any of these edges; commands may stand on the ports
(70_reset_and_hazards.md R272). -/
def referenceEdges (es : List Edge) : Prop := ∀ e ∈ es, e.rst = false ∧ e.microSteps = 1

/-- How many micro-steps these edges make for a busy block (93_implementation_defined.md S3). -/
def microTotal (es : List Edge) : Nat := (es.map Edge.microSteps).sum

/-- The edges of a history: each command presented for one edge, then the edges that come with it. -/
def historyEdges (history : List (Instr × List Edge)) : List Edge :=
  history.flatMap fun c => Edge.command c.1.op c.1.data :: c.2

/-- SK fits KEY: outside a SETKEY every subkey is that of KEY (10_state.md R50), and between the rounds of one C and
D are the halves of KEY's schedule and the subkeys below RND are KEY's (41_key_schedule.md R138, R139). -/
def State.subkeysFit (s : State) : Prop :=
  match s.phase with
  | .idle => s.sk = keySchedule s.key
  | .ksLoad => True
  | .ksRound =>
    (s.c, s.d) = ksHalves s.key s.rnd.toNat ∧
      ∀ i : Fin 16, i.val < s.rnd.toNat → s.sk[i.val] = subkey s.key i.val
  | .ciLoad => s.sk = keySchedule s.key
  | .ciRound => s.sk = keySchedule s.key
  | .ciSwap => s.sk = keySchedule s.key
  | .ciOut => s.sk = keySchedule s.key

/-- The cipher state is that of the source's state machine (43_block_cipher.md R194, R197): L and R are L_r and R_r of
DIN before round RND = r, L_16 and R_16 before CI_SWAP, and PRE is R_16 ‖ L_16 before CI_OUT. -/
def State.cipherOnTrack (s : State) : Prop :=
  match s.phase with
  | .idle => True
  | .ksLoad => True
  | .ksRound => True
  | .ciLoad => True
  | .ciRound => (s.l, s.r) = cipherHalves s.din s.sk s.dir s.rnd.toNat
  | .ciSwap => (s.l, s.r) = cipherHalves s.din s.sk s.dir 16
  | .ciOut => s.pre = preOutput (cipherHalves s.din s.sk s.dir 16)

/-- DONE and ERR are never both set, and a busy block has neither (10_state.md R42, R43). -/
def State.statusFits (s : State) : Prop :=
  ¬(s.done = true ∧ s.err = true) ∧ (s.phase ≠ .idle → s.done = false ∧ s.err = false)

/-- The working registers a phase still reads (10_state.md R52) are equal in two states. -/
def State.sameLive (s t : State) : Prop :=
  match s.phase with
  | .idle => True
  | .ksLoad => True
  | .ksRound => s.c = t.c ∧ s.d = t.d ∧ s.rnd = t.rnd
  | .ciLoad => s.din = t.din ∧ s.dir = t.dir
  | .ciRound => s.l = t.l ∧ s.r = t.r ∧ s.rnd = t.rnd ∧ s.dir = t.dir
  | .ciSwap => s.l = t.l ∧ s.r = t.r
  | .ciOut => s.pre = t.pre

/-- Two states that no run of the ports can tell apart: everything but the working registers no longer or not yet
read is equal (10_state.md R49, R52). -/
def State.indistinguishable (s t : State) : Prop :=
  s.key = t.key ∧ s.sk = t.sk ∧ s.phase = t.phase ∧ s.dout = t.dout ∧ s.done = t.done ∧ s.err = t.err ∧
    s.edges = t.edges ∧ s.sameLive t

end Sys2Proof.Machine
end

