-- ==== Sys2Proof/Certificates/Slice0/Obligations.lean ====
section
/-! DEFINITION. The statements for the provers. Each docstring names the rule of spec/ it formalises. -/

open Sys2Proof Sys2Proof.Machine

/-! ### Encoding -/

/-- 30_encoding.md R80, R83, R84: no bit of a command is dropped by its encoding. -/
def Obligations.DecodeOfEncode : Prop :=
  ∀ i : Instr, i.wellFormed = true → decode (encode i) = i

/-- 30_encoding.md R84, R85: every 68-bit word is one command, and its encoding is the word. -/
def Obligations.EncodeOfDecode : Prop :=
  ∀ w : Command, (decode w).wellFormed = true ∧ encode (decode w) = w

/-- 30_encoding.md R83: the opcode map, `op` alone selecting the command. -/
def Obligations.OpcodeMapSelectsByOp : Prop :=
  ∀ (op : Opcode) (data : Block),
    (op = 0x0#4 → decode (commandWord op data) = .illegalZero data) ∧
    (op = 0x1#4 → decode (commandWord op data) = .setkey data) ∧
    (op = 0x2#4 → decode (commandWord op data) = .encrypt data) ∧
    (op = 0x3#4 → decode (commandWord op data) = .decrypt data) ∧
    (4 ≤ op.toNat ∧ op.toNat ≤ 7 → decode (commandWord op data) = .illegalLow op data) ∧
    (8 ≤ op.toNat → decode (commandWord op data) = .illegalHigh op data)

/-- spec/opcode_table.json: every word matches exactly one row, the row of the instruction it decodes to. -/
def Obligations.EveryWordMatchesItsOneRow : Prop :=
  ∀ w : Command, opcodeTable.filter (fun row => rowMatches row w) = [(decode w).row]

/-- 30_encoding.md R80, R89 and 95_test_vectors.md section 3: words of the spec's programs decode to their commands. -/
def Obligations.SampleWordsDecode : Prop :=
  decode 0x1133457799BBCDFF1#68 = .setkey 0x133457799BBCDFF1#64 ∧
  decode 0x20123456789ABCDEF#68 = .encrypt 0x0123456789ABCDEF#64 ∧
  decode 0x385E813540F0AB405#68 = .decrypt 0x85E813540F0AB405#64 ∧
  decode 0x00000000000000000#68 = .illegalZero 0x0000000000000000#64 ∧
  decode 0x7FFFFFFFFFFFFFFFF#68 = .illegalLow 0x7#4 0xFFFFFFFFFFFFFFFF#64 ∧
  decode 0xF133457799BBCDFF1#68 = .illegalHigh 0xF#4 0x133457799BBCDFF1#64

/-- 30_encoding.md R80, R89: the 17-digit text of a word names that word. -/
def Obligations.WordTextReadsBack : Prop :=
  ∀ w : Command, parseWord (wordText w) = .ok w

/-! ### The step -/

/-- 30_encoding.md R81, 10_state.md R53: an accepted command is the decoded word, run by `exec` on the state the edge
finds; every word decodes to a well-formed command. -/
def Obligations.StepRunsDecodedCommand : Prop :=
  ∀ s : State, s.edge.rst = false → s.phase = .idle → s.edge.cmdValid = true →
    (decode s.edge.word).wellFormed = true ∧ step s = exec (decode s.edge.word) s.consumeEdge

/-- The model's choice (assumption logs 9 and 10): a placed command word of 68 bits is the very next thing the machine runs. -/
def Obligations.PlacedWordRunsNext : Prop :=
  ∀ (s : State) (w : Nat), w < 2 ^ 68 →
    decodeTableWord 68 w = some (decode (BitVec.ofNat 68 w)) ∧
    step (s.withFetchWord 68 w) =
      exec (decode (BitVec.ofNat 68 w)) { s with phase := .idle, edges := s.edges.tail }

/-- 10_state.md R53, 60_exceptions.md R236: which action an edge of the reference timing takes, in its order. -/
def Obligations.EdgeTakesOneActionInOrder : Prop :=
  ∀ s : State, s.edge.microSteps = 1 →
    (s.edge.rst = true → step s = .next s.consumeEdge.resetEdge) ∧
    (s.edge.rst = false →
      (s.phase = .idle → s.edge.cmdValid = true → step s = exec (decode s.edge.word) s.consumeEdge) ∧
      (s.phase = .idle → s.edge.cmdValid = false → step s = .next s.consumeEdge) ∧
      (s.phase = .ksLoad → step s = .next (ksLoad s.consumeEdge)) ∧
      (s.phase = .ksRound → step s = .next (ksRound s.consumeEdge)) ∧
      (s.phase = .ciLoad → step s = .next (ciLoad s.consumeEdge)) ∧
      (s.phase = .ciRound → step s = .next (ciRound s.consumeEdge)) ∧
      (s.phase = .ciSwap → step s = .next (ciSwap s.consumeEdge)) ∧
      (s.phase = .ciOut → step s = .next (ciOut s.consumeEdge)))

/-- 10_state.md R53, 60_exceptions.md R234, 70_reset_and_hazards.md R265: a busy block does not look at the command
ports. -/
def Obligations.BusyBlockIgnoresCommandPorts : Prop :=
  ∀ (s : State) (e : Edge) (es : List Edge) (valid : Bool) (op : Opcode) (data : Block),
    s.phase ≠ .idle → e.rst = false →
      step (s.drivenBy (e :: es)) =
        step (s.drivenBy ({ e with cmdValid := valid, cmdOp := op, cmdData := data } :: es))

/-- 60_exceptions.md R244: an IDLE block with nothing presented keeps its state. -/
def Obligations.IdleBlockKeepsItsState : Prop :=
  ∀ s : State, s.phase = .idle → s.edge.rst = false → s.edge.cmdValid = false → step s = .next s.consumeEdge

/-- 10_state.md R53, 60_exceptions.md R232, 70_reset_and_hazards.md R273: no state is stuck and no edge stops the
machine. -/
def Obligations.EveryStepHasNextState : Prop :=
  ∀ s : State, ∃ t : State, step s = .next t

/-! ### Reset -/

/-- 70_reset_and_hazards.md R260: one edge with `rst` = 1, whatever the phase, leaves the reset state; while `rst` = 1,
`cmd_ready` = 0. -/
def Obligations.ResetEdgeLeavesResetState : Prop :=
  ∀ s : State, s.edge.rst = true →
    (s.ports true).cmdReady = false ∧
    ∃ t : State, step s = .next t ∧ t.key = Config.defaultKey ∧
      (∀ i : Fin 16, t.sk[i.val] = (keySchedule Config.defaultKey)[i.val]) ∧
      t.phase = .idle ∧ t.dout = 0x0000000000000000#64 ∧ t.done = false ∧ t.err = false

/-- 10_state.md R51: the reset values the spec gives. -/
def Obligations.ResetStateHasStatedValues : Prop :=
  State.reset.key = Config.defaultKey ∧
  (∀ i : Fin 16, State.reset.sk[i.val] = (keySchedule Config.defaultKey)[i.val]) ∧
  State.reset.phase = .idle ∧ State.reset.dout = 0x0000000000000000#64 ∧
  State.reset.done = false ∧ State.reset.err = false

/-- A reset leaves no trace of what it abandons. Two states that meet it with the same coming edges and the same number
of resets taken go to one state, whatever else they hold. That KEY, SK, PHASE, DOUT, DONE and ERR are then equal is
70_reset_and_hazards.md R260 and R261. That DIN, DIR, L, R, C, D, PRE and RND are equal too is the model's choice
(assumption log 4: their values after reset are a function of the number of resets), which 10_state.md R52 leaves open. -/
def Obligations.ResetLeavesNoTrace : Prop :=
  ∀ s t : State, s.edges = t.edges → s.resets = t.resets → s.edge.rst = true → step s = step t

/-! ### The commands at acceptance -/

/-- 41_key_schedule.md R141 (acceptance), 30_encoding.md R81: SETKEY completes its accepting micro-step in every
state. -/
def Obligations.SetkeyAcceptance : Prop :=
  ∀ (data : Block) (s : State),
    exec (.setkey data) s = .next { s with key := data, phase := .ksLoad, done := false, err := false }

/-- 43_block_cipher.md R200, R201 (acceptance), 30_encoding.md R81: ENCRYPT and DECRYPT complete their accepting
micro-step in every state. -/
def Obligations.CipherAcceptance : Prop :=
  ∀ (data : Block) (s : State),
    exec (.encrypt data) s =
      .next { s with din := data, dir := 0#1, phase := .ciLoad, done := false, err := false } ∧
    exec (.decrypt data) s =
      .next { s with din := data, dir := 1#1, phase := .ciLoad, done := false, err := false }

/-- 60_exceptions.md R231: the three illegal rows complete in every state, with DONE = 0 and ERR = 1 and nothing else
changed, and a legal command then clears ERR at its acceptance. -/
def Obligations.IllegalCommandSetsErrOnly : Prop :=
  ∀ (op : Opcode) (data : Block) (s : State),
    exec (.illegalZero data) s = .next { s with done := false, err := true } ∧
    exec (.illegalLow op data) s = .next { s with done := false, err := true } ∧
    exec (.illegalHigh op data) s = .next { s with done := false, err := true } ∧
    ∀ next : Instr, next.op = 0x1#4 ∨ next.op = 0x2#4 ∨ next.op = 0x3#4 → next.wellFormed = true →
      ∃ t : State, exec next { s with done := false, err := true } = .next t ∧ t.err = false

/-- 30_encoding.md R84, R86: every word with an illegal opcode is accepted, its data is ignored, and no state but DONE
and ERR changes. -/
def Obligations.IllegalWordIgnoresData : Prop :=
  ∀ (op : Opcode) (data data' : Block) (s : State),
    op ≠ 0x1#4 → op ≠ 0x2#4 → op ≠ 0x3#4 →
      exec (decode (commandWord op data)) s = exec (decode (commandWord op data')) s ∧
      exec (decode (commandWord op data)) s = .next { s with done := false, err := true }

/-- 41_key_schedule.md R141, 43_block_cipher.md R200, R201, 60_exceptions.md R231: what every accepted command leaves
unchanged. There is no memory; `edges` and `resets` are the model's own fields. -/
def Obligations.AcceptanceFrame : Prop :=
  ∀ (i : Instr) (s t : State), exec i s = .next t →
    (t.sk = s.sk ∧ t.l = s.l ∧ t.r = s.r ∧ t.c = s.c ∧ t.d = s.d ∧ t.pre = s.pre ∧ t.rnd = s.rnd ∧
      t.dout = s.dout ∧ t.edges = s.edges ∧ t.resets = s.resets ∧ t.done = false) ∧
    ((∀ data, i ≠ .setkey data) → t.key = s.key) ∧
    ((∀ data, i ≠ .encrypt data ∧ i ≠ .decrypt data) → t.din = s.din ∧ t.dir = s.dir) ∧
    ((∀ data, i ≠ .setkey data ∧ i ≠ .encrypt data ∧ i ≠ .decrypt data) → t.phase = s.phase)

/-! ### The micro-steps -/

/-- 41_key_schedule.md R138: KS_LOAD, with everything it leaves unchanged. -/
def Obligations.KsLoadMicroStep : Prop :=
  ∀ s : State, s.phase = .ksLoad → s.edge.rst = false → s.edge.microSteps = 1 →
    step s = .next { s.consumeEdge with
      c := (permute pc1Table s.key).extractLsb' 28 28
      d := (permute pc1Table s.key).extractLsb' 0 28
      rnd := 0#4
      phase := .ksRound }

/-- 41_key_schedule.md R139: KS_ROUND, with everything it leaves unchanged. -/
def Obligations.KsRoundMicroStep : Prop :=
  ∀ (s : State) (c1 d1 : KeyHalf), s.phase = .ksRound → s.edge.rst = false → s.edge.microSteps = 1 →
    c1 = rotl28 s.c (shifts[s.rnd.toNat]'s.rnd.isLt) → d1 = rotl28 s.d (shifts[s.rnd.toNat]'s.rnd.isLt) →
    (s.rnd = 15#4 →
      step s = .next { s.consumeEdge with
        c := c1, d := d1, sk := s.sk.set s.rnd.toNat (permute pc2Table (c1 ++ d1)) s.rnd.isLt
        phase := .idle, done := true }) ∧
    (s.rnd ≠ 15#4 →
      step s = .next { s.consumeEdge with
        c := c1, d := d1, sk := s.sk.set s.rnd.toNat (permute pc2Table (c1 ++ d1)) s.rnd.isLt
        rnd := BitVec.ofNat 4 (s.rnd.toNat + 1) })

/-- 43_block_cipher.md R192: CI_LOAD, with everything it leaves unchanged. -/
def Obligations.CiLoadMicroStep : Prop :=
  ∀ s : State, s.phase = .ciLoad → s.edge.rst = false → s.edge.microSteps = 1 →
    step s = .next { s.consumeEdge with
      l := (permute ipTable s.din).extractLsb' 32 32
      r := (permute ipTable s.din).extractLsb' 0 32
      rnd := 0#4
      phase := .ciRound }

/-- 43_block_cipher.md R191, R193: CI_ROUND with the subkey order of DIR, with everything it leaves unchanged. -/
def Obligations.CiRoundMicroStep : Prop :=
  ∀ (s : State) (k : Subkey), s.phase = .ciRound → s.edge.rst = false → s.edge.microSteps = 1 →
    (s.dir = 0#1 → k = s.sk[s.rnd.toNat]'s.rnd.isLt) →
    (s.dir = 1#1 → some k = s.sk[15 - s.rnd.toNat]?) →
    (s.rnd = 15#4 →
      step s = .next { s.consumeEdge with l := s.r, r := s.l ^^^ feistel s.r k, phase := .ciSwap }) ∧
    (s.rnd ≠ 15#4 →
      step s = .next { s.consumeEdge with
        l := s.r, r := s.l ^^^ feistel s.r k, rnd := BitVec.ofNat 4 (s.rnd.toNat + 1) })

/-- 43_block_cipher.md R195, R196: CI_SWAP and CI_OUT, with everything they leave unchanged. -/
def Obligations.CiSwapAndCiOutMicroSteps : Prop :=
  ∀ s : State, s.edge.rst = false → s.edge.microSteps = 1 →
    (s.phase = .ciSwap → step s = .next { s.consumeEdge with pre := s.r ++ s.l, phase := .ciOut }) ∧
    (s.phase = .ciOut →
      step s = .next { s.consumeEdge with dout := permute fpTable s.pre, done := true, phase := .idle })

/-! ### Whole commands -/

/-- 41_key_schedule.md R141: SETKEY as a transaction. Presented to an IDLE block, with neither reset nor a command
while it runs, it ends in the stated state whatever the timing, once its 17 micro-steps are made. -/
def Obligations.SetkeyTransaction : Prop :=
  ∀ (s : State) (data : Block) (es : List Edge), s.phase = .idle → quietEdges es → 17 ≤ microTotal es →
    runSteps (es.length + 1) (s.drivenBy (Edge.command 0x1#4 data :: es)) =
      .next ((s.afterSetkey data).drivenBy [])

/-- 43_block_cipher.md R200: ENCRYPT as a transaction, whatever the timing, once its 19 micro-steps are made; where SK
is the schedule of KEY its result is DES_enc(KEY, data). -/
def Obligations.EncryptTransaction : Prop :=
  ∀ (s : State) (data : Block) (es : List Edge), s.phase = .idle → quietEdges es → 19 ≤ microTotal es →
    runSteps (es.length + 1) (s.drivenBy (Edge.command 0x2#4 data :: es)) =
      .next ((s.afterCipher 0#1 data).drivenBy []) ∧
    (s.sk = keySchedule s.key → (s.afterCipher 0#1 data).dout = desEnc s.key data)

/-- 43_block_cipher.md R201: DECRYPT as a transaction, as ENCRYPT with DIR = 1. -/
def Obligations.DecryptTransaction : Prop :=
  ∀ (s : State) (data : Block) (es : List Edge), s.phase = .idle → quietEdges es → 19 ≤ microTotal es →
    runSteps (es.length + 1) (s.drivenBy (Edge.command 0x3#4 data :: es)) =
      .next ((s.afterCipher 1#1 data).drivenBy []) ∧
    (s.sk = keySchedule s.key → (s.afterCipher 1#1 data).dout = desDec s.key data)

/-- 43_block_cipher.md R203, 20_memory.md R70: the micro-step model agrees with the transaction-level model at IDLE. A
history of commands, each presented to the IDLE block and followed by quiet edges enough to finish it, whatever the timing,
leaves what applying each command whole leaves. -/
def Obligations.TransactionModelAgreesAtIdle : Prop :=
  ∀ (s : State) (history : List (Instr × List Edge)), s.phase = .idle →
    (∀ c ∈ history, c.1.wellFormed = true ∧ quietEdges c.2 ∧ 19 ≤ microTotal c.2) →
      runSteps (historyEdges history).length (s.drivenBy (historyEdges history)) =
        .next ((s.transactAll (history.map fun c => .complete c.1)).drivenBy [])

/-- 43_block_cipher.md R203, 70_reset_and_hazards.md R261: the micro-step model agrees with the transaction-level model
at every IDLE state, under every drive of the ports and every timing. From an IDLE state the run answers a state that is
IDLE exactly when the transaction-level model has no command in progress, and it is then the state of applying the drive's
transactions whole, each command cut by a reset discarded. What a reset leaves in the working registers is assumption
log 4's. -/
def Obligations.TransactionsOfEveryDriveAgreeAtIdle : Prop :=
  ∀ (s : State) (es : List Edge), s.phase = .idle →
    ∃ t : State, runSteps es.length (s.drivenBy es) = .next t ∧
      (t.phase = .idle ↔ (transactionsOf none es).2 = none) ∧
      (t.phase = .idle → t = (s.transactAll (transactionsOf none es).1).drivenBy [])

/-- 41_key_schedule.md R140, 70_reset_and_hazards.md R272: in the reference timing SETKEY takes 17 edges after its
acceptance, no fewer, whatever stands on the command ports meanwhile. -/
def Obligations.SetkeyTakesSeventeenEdges : Prop :=
  ∀ (s : State) (data : Block) (es : List Edge), s.phase = .idle → referenceEdges es → es.length = Config.latSetkey →
    (∀ n < Config.latSetkey, ∃ t : State,
      runSteps (n + 1) (s.drivenBy (Edge.command 0x1#4 data :: es)) = .next t ∧ t.phase ≠ .idle) ∧
    runSteps (Config.latSetkey + 1) (s.drivenBy (Edge.command 0x1#4 data :: es)) =
      .next ((s.afterSetkey data).drivenBy [])

/-- 43_block_cipher.md R197, 70_reset_and_hazards.md R272: in the reference timing a cipher command takes 19 edges
after its acceptance, no fewer, whatever stands on the command ports meanwhile, and DOUT keeps the previous result until
the last of them (R266). -/
def Obligations.CipherTakesNineteenEdges : Prop :=
  ∀ (s : State) (op : Opcode) (dir : BitVec 1) (data : Block) (es : List Edge),
    s.phase = .idle → referenceEdges es → es.length = Config.latCipher →
    (op = 0x2#4 ∧ dir = 0#1) ∨ (op = 0x3#4 ∧ dir = 1#1) →
    (∀ n < Config.latCipher, ∃ t : State,
      runSteps (n + 1) (s.drivenBy (Edge.command op data :: es)) = .next t ∧ t.phase ≠ .idle ∧ t.dout = s.dout) ∧
    runSteps (Config.latCipher + 1) (s.drivenBy (Edge.command op data :: es)) =
      .next ((s.afterCipher dir data).drivenBy [])

/-- 70_reset_and_hazards.md R273: every command in progress is done after at most 19 micro-steps, from every state. -/
def Obligations.BusyBlockReachesIdle : Prop :=
  ∀ s : State, (runMicroSteps 19 s).phase = .idle

/-- 70_reset_and_hazards.md R274: the timing changes no value. Two timings of the same quiet edges that both let the
command in progress finish end in the same state. -/
def Obligations.TimingChangesNoValue : Prop :=
  ∀ (s : State) (es es' : List Edge), quietEdges es → quietEdges es' → 19 ≤ microTotal es → 19 ≤ microTotal es' →
    ∃ t : State, t.phase = .idle ∧
      runSteps es.length (s.drivenBy es) = .next t ∧ runSteps es'.length (s.drivenBy es') = .next t

/-! ### Byte order -/

/-- 20_memory.md R63: byte k of a block is bits [63-8k : 56-8k], the k-th character, its bit 7 first. -/
def Obligations.BlockBytesAreBigEndian : Prop :=
  ∀ (bs : Vector (BitVec 8) 8) (k : Fin 8),
    blockByte (blockOfBytes bs) k = bs[k.val] ∧
    ∀ b : Fin 8, (blockOfBytes bs).getLsbD (56 - 8 * k.val + b.val) = bs[k.val].getLsbD b.val

/-! ### The permutation engine -/

/-- 40_permutation_engine.md R100: output bit m-1-i is the input bit at DES position T[i]. -/
def Obligations.PermuteTakesTableBit : Prop :=
  ∀ (n m : Nat) (T : PermTable n m) (v : BitVec n) (i p : Nat),
    T.entries[i]? = some p → (permute T v).getLsbD (m - 1 - i) = v.getLsbD (n - p)

/-- 40_permutation_engine.md R101: a table with an entry outside [1, n] gives no value, and a table without one gives
the primitive's. -/
def Obligations.OutOfRangeTableFaults : Prop :=
  ∀ (n : Nat) (entries : List Nat) (v : BitVec n),
    ((∃ p ∈ entries, p < 1 ∨ n < p) → permuteChecked entries v = .error .permuteIndexOutOfRange) ∧
    ((∀ p ∈ entries, 1 ≤ p ∧ p ≤ n) →
      ∃ out : BitVec entries.length, permuteChecked entries v = .ok out ∧
        ∀ i p : Nat, entries[i]? = some p → out.getLsbD (entries.length - 1 - i) = v.getLsbD (n - p))

/-- 40_permutation_engine.md R106: FP is the inverse of IP, as tables and on every block, with the rule's example. -/
def Obligations.FinalInvertsInitialPermutation : Prop :=
  (∀ v : Block, permute fpTable (permute ipTable v) = v ∧ permute ipTable (permute fpTable v) = v) ∧
  (∀ i p : Nat, ipEntries[i]? = some p → fpEntries[p - 1]? = some (i + 1)) ∧
  permute ipTable 0x0123456789ABCDEF#64 = 0xCC00CCFFF0AAF0AA#64 ∧
  permute fpTable 0xCC00CCFFF0AAF0AA#64 = 0x0123456789ABCDEF#64

/-- 40_permutation_engine.md R108, R111, R113: which positions E, PC1 and PC2 take, and how often. -/
def Obligations.TablesTakeStatedPositions : Prop :=
  (∀ p ∈ [1, 4, 5, 8, 9, 12, 13, 16, 17, 20, 21, 24, 25, 28, 29, 32], eEntries.count p = 2) ∧
  (∀ p ∈ [2, 3, 6, 7, 10, 11, 14, 15, 18, 19, 22, 23, 26, 27, 30, 31], eEntries.count p = 1) ∧
  (∀ p : Fin 65, 1 ≤ p.val → pc1Entries.count p.val = if p.val % 8 = 0 then 0 else 1) ∧
  (∀ p : Fin 57, 1 ≤ p.val →
    pc2Entries.count p.val = if p.val ∈ [9, 18, 22, 25, 35, 38, 43, 54] then 0 else 1) ∧
  (∀ p ∈ pc2Entries.take 24, 1 ≤ p ∧ p ≤ 28) ∧ (∀ p ∈ pc2Entries.drop 24, 29 ≤ p ∧ p ≤ 56)

/-! ### The key schedule -/

/-- 41_key_schedule.md R134: the rotations accumulate, and after sixteen of them the halves are back where they
started. -/
def Obligations.RotationsAccumulateAndReturn : Prop :=
  ∀ k : Block,
    (∀ (i : Nat) (h : i < 16),
      ksHalves k (i + 1) = (rotl28 (ksHalves k i).1 shifts[i], rotl28 (ksHalves k i).2 shifts[i])) ∧
    ksHalves k 16 = ksHalves k 0

/-- 41_key_schedule.md R136: keys that differ only in parity bits have the same subkeys. -/
def Obligations.ParityBitsDoNotReachSubkeys : Prop :=
  ∀ k k' : Block, sameEffectiveKey k k' → keySchedule k = keySchedule k'

/-- 41_key_schedule.md R142: the four keys with sixteen equal subkeys, for which encryption undoes itself. -/
def Obligations.WeakKeyEncryptsTwiceToSame : Prop :=
  ∀ (k : Block) (sub : Subkey),
    (k, sub) ∈ [(0x0101010101010101#64, 0x000000000000#48), (0xFEFEFEFEFEFEFEFE#64, 0xFFFFFFFFFFFF#48),
      (0xE0E0E0E0F1F1F1F1#64, 0xFFFFFF000000#48), (0x1F1F1F1F0E0E0E0E#64, 0x000000FFFFFF#48)] →
    (∀ i : Fin 16, (keySchedule k)[i.val] = sub) ∧ ∀ m : Block, desEnc k (desEnc k m) = m

/-! ### The round function and the cipher -/

/-- 42_feistel_round.md R170: each row of each S-box is a permutation of 0..15, so a column's entry is its own. -/
def Obligations.SboxRowsArePermutations : Prop :=
  ∀ (j : Fin 8) (row : Fin 4),
    sboxRowIsPermutation ((sboxes[j.val][row.val]).toList.map BitVec.toNat) = true ∧
    ∀ col col' : Fin 16, sboxes[j.val][row.val][col.val] = sboxes[j.val][row.val][col'.val] → col = col'

/-- 42_feistel_round.md R163, R164, R166, R169: the lookup of a group is SBOX[j][2 g[5] + g[0]][uint(g[4:1])], never a
default, and an index out of range faults. -/
def Obligations.SboxLookupNeverDefaults : Prop :=
  (∀ (j : Fin 8) (g : BitVec 6),
    sboxChecked j.val (2 * (g.getLsbD 5).toNat + (g.getLsbD 0).toNat) ((g.toNat / 2) % 16) = .ok (sboxLookup j g)) ∧
  (∀ j row col : Nat, ¬(j < 8 ∧ row < 4 ∧ col < 16) → sboxChecked j row col = .error .sboxIndexOutOfRange)

/-- 42_feistel_round.md R163, R166: bits [31-4j : 28-4j] of the S-box layer are the entry of group j. -/
def Obligations.SboxLayerPlacesEntries : Prop :=
  ∀ (x : BitVec 48) (j : Fin 8),
    (sboxLayer x).extractLsb' (28 - 4 * j.val) 4 = sboxLookup j (x.extractLsb' (42 - 6 * j.val) 6)

/-- 42_feistel_round.md R171, 95_test_vectors.md section 2.4: complementing the half or the subkey has one effect. -/
def Obligations.RoundFunctionComplement : Prop :=
  ∀ (r : Half) (k : Subkey), feistel (~~~r) k = feistel r (~~~k) ∧ feistel (~~~r) (~~~k) = feistel r k

/-- 43_block_cipher.md R202: decryption undoes encryption, for every key and block. -/
def Obligations.DecryptUndoesEncrypt : Prop :=
  ∀ k m : Block, desDec k (desEnc k m) = m

/-- 95_test_vectors.md section 2.5: ENC(~k, ~m) = ~ENC(k, m). -/
def Obligations.ComplementationProperty : Prop :=
  ∀ k m : Block, desEnc (~~~k) (~~~m) = ~~~(desEnc k m)

/-! ### Invariants -/

/-- 10_state.md R50: SK is the schedule of KEY whenever PHASE = IDLE, made inductive over the phases of SETKEY
(41_key_schedule.md R139); every step keeps it. -/
def Obligations.StepKeepsSubkeysFit : Prop :=
  ∀ s t : State, s.subkeysFit → step s = .next t → t.subkeysFit

/-- 43_block_cipher.md R194, R197: the working registers follow the source's state machine; every step keeps it. -/
def Obligations.StepKeepsCipherOnTrack : Prop :=
  ∀ s t : State, s.cipherOnTrack → step s = .next t → t.cipherOnTrack

/-- 10_state.md R42, R43: DONE and ERR are never both set and a busy block has neither; every step keeps it. -/
def Obligations.StepKeepsStatusFits : Prop :=
  ∀ s t : State, s.statusFits → step s = .next t → t.statusFits

/-- 10_state.md R50: in every run from reset, under every drive of the ports and every timing, SK is the schedule of KEY
whenever PHASE = IDLE. -/
def Obligations.EveryRunKeepsSubkeysOfKeyAtIdle : Prop :=
  ∀ (es : List Edge) (n : Nat) (t : State), runSteps n (State.reset.drivenBy es) = .next t → t.phase = .idle →
    ∀ i : Fin 16, t.sk[i.val] = (keySchedule t.key)[i.val]

/-- 10_state.md R51, 70_reset_and_hazards.md R262: the three invariants hold right after reset. -/
def Obligations.ResetStateMeetsInvariants : Prop :=
  State.reset.subkeysFit ∧ State.reset.cipherOnTrack ∧ State.reset.statusFits

/-- 43_block_cipher.md R196, R199: in a state the invariants describe, the edge that completes a cipher command writes
DES_enc(KEY, DIN) or DES_dec(KEY, DIN). -/
def Obligations.CompletionWritesDesResult : Prop :=
  ∀ s : State, s.subkeysFit → s.cipherOnTrack → s.phase = .ciOut → s.edge.rst = false → s.edge.microSteps = 1 →
    ∃ t : State, step s = .next t ∧ t.phase = .idle ∧ t.done = true ∧
      (s.dir = 0#1 → t.dout = desEnc s.key s.din) ∧ (s.dir = 1#1 → t.dout = desDec s.key s.din)

/-! ### Whole-machine rules -/

/-- 10_state.md R32: KEY is written only by an accepted SETKEY and by reset. -/
def Obligations.OnlySetkeyAndResetWriteKey : Prop :=
  ∀ s t : State, step s = .next t → t.key ≠ s.key →
    (s.edge.rst = true ∧ t.key = Config.defaultKey) ∨
    (s.edge.rst = false ∧ s.phase = .idle ∧ s.edge.cmdValid = true ∧ s.edge.cmdOp = 0x1#4 ∧ t.key = s.edge.cmdData)

/-- 10_state.md R33: SK is written only by KS_ROUND, at index RND, and by reset (an edge of the reference timing). -/
def Obligations.OnlyKsRoundAndResetWriteSubkeys : Prop :=
  ∀ (s t : State) (i : Fin 16), s.edge.microSteps = 1 → step s = .next t → t.sk[i.val] ≠ s.sk[i.val] →
    s.edge.rst = true ∨ (s.phase = .ksRound ∧ s.rnd.toNat = i.val)

/-- 10_state.md R41: DOUT is written only by CI_OUT and by reset (an edge of the reference timing). -/
def Obligations.OnlyCiOutAndResetWriteDout : Prop :=
  ∀ s t : State, s.edge.microSteps = 1 → step s = .next t → t.dout ≠ s.dout →
    (s.edge.rst = true ∧ t.dout = 0#64) ∨ (s.edge.rst = false ∧ s.phase = .ciOut ∧ t.dout = permute fpTable s.pre)

/-- 10_state.md R49, R52: no unspecified reset value of a working register ever reaches a port. Two states that agree
on everything but the working registers still to be written stay so, and their ports show the same. -/
def Obligations.HiddenRegistersNeverReachPorts : Prop :=
  ∀ s t : State, s.indistinguishable t →
    (∀ rst : Bool, s.ports rst = t.ports rst) ∧
    ∃ s' t' : State, step s = .next s' ∧ step t = .next t' ∧ s'.indistinguishable t'

/-- 10_state.md R45: the output ports. -/
def Obligations.PortsShowState : Prop :=
  ∀ (s : State) (rst : Bool),
    ((s.ports rst).cmdReady = true ↔ s.phase = .idle ∧ rst = false) ∧
    (s.ports rst).done = s.done ∧ (s.ports rst).err = s.err ∧ (s.ports rst).dout = s.dout ∧
    (s.ports rst).keyQ = s.key

/-! ### The host's script -/

/-- 30_encoding.md R87, 70_reset_and_hazards.md R265: the host holds a script's command while the block is busy, and
drops it at the edge that accepts it; assumption log 13 fixes the run. -/
def Obligations.ScriptCommandHeldUntilAccepted : Prop :=
  ∀ (run : ScriptRun) (w : Command) (rest : List ScriptLine), run.lines = .present w :: rest →
    (run.state.phase ≠ .idle → ∃ run' : ScriptRun, scriptEdge run = .next run' ∧ run'.lines = run.lines ∧
      run'.state = runMicroSteps (run.pace.headD 1) (run.state.drivenBy [])) ∧
    (run.state.phase = .idle → ∃ run' : ScriptRun, scriptEdge run = .next run' ∧ run'.lines = rest ∧
      exec (decode w) (run.state.drivenBy []) = .next run'.state)
end

