-- ==== Sys2Proof/Laws/State.lean ====
section
/-! SUPPORT. One lemma per field of State per update, each true by rfl, so that no proof unfolds a record update. -/

namespace Sys2Proof.Machine

/-! ### State.resetWith -/

@[simp] theorem State.resetWith_key (n : Nat) (es : List Edge) :
    (State.resetWith n es).key = Config.defaultKey := rfl

@[simp] theorem State.resetWith_sk (n : Nat) (es : List Edge) :
    (State.resetWith n es).sk = keySchedule Config.defaultKey := rfl

@[simp] theorem State.resetWith_din (n : Nat) (es : List Edge) :
    (State.resetWith n es).din = Config.freeDin n := rfl

@[simp] theorem State.resetWith_dir (n : Nat) (es : List Edge) :
    (State.resetWith n es).dir = Config.freeDir n := rfl

@[simp] theorem State.resetWith_l (n : Nat) (es : List Edge) :
    (State.resetWith n es).l = Config.freeL n := rfl

@[simp] theorem State.resetWith_r (n : Nat) (es : List Edge) :
    (State.resetWith n es).r = Config.freeR n := rfl

@[simp] theorem State.resetWith_c (n : Nat) (es : List Edge) :
    (State.resetWith n es).c = Config.freeC n := rfl

@[simp] theorem State.resetWith_d (n : Nat) (es : List Edge) :
    (State.resetWith n es).d = Config.freeD n := rfl

@[simp] theorem State.resetWith_pre (n : Nat) (es : List Edge) :
    (State.resetWith n es).pre = Config.freePre n := rfl

@[simp] theorem State.resetWith_rnd (n : Nat) (es : List Edge) :
    (State.resetWith n es).rnd = Config.freeRnd n := rfl

@[simp] theorem State.resetWith_phase (n : Nat) (es : List Edge) :
    (State.resetWith n es).phase = .idle := rfl

@[simp] theorem State.resetWith_dout (n : Nat) (es : List Edge) :
    (State.resetWith n es).dout = 0#64 := rfl

@[simp] theorem State.resetWith_done (n : Nat) (es : List Edge) :
    (State.resetWith n es).done = false := rfl

@[simp] theorem State.resetWith_err (n : Nat) (es : List Edge) :
    (State.resetWith n es).err = false := rfl

@[simp] theorem State.resetWith_edges (n : Nat) (es : List Edge) :
    (State.resetWith n es).edges = es := rfl

@[simp] theorem State.resetWith_resets (n : Nat) (es : List Edge) :
    (State.resetWith n es).resets = n := rfl

/-! ### State.consumeEdge -/

@[simp] theorem State.consumeEdge_key (s : State) : s.consumeEdge.key = s.key := rfl

@[simp] theorem State.consumeEdge_sk (s : State) : s.consumeEdge.sk = s.sk := rfl

@[simp] theorem State.consumeEdge_din (s : State) : s.consumeEdge.din = s.din := rfl

@[simp] theorem State.consumeEdge_dir (s : State) : s.consumeEdge.dir = s.dir := rfl

@[simp] theorem State.consumeEdge_l (s : State) : s.consumeEdge.l = s.l := rfl

@[simp] theorem State.consumeEdge_r (s : State) : s.consumeEdge.r = s.r := rfl

@[simp] theorem State.consumeEdge_c (s : State) : s.consumeEdge.c = s.c := rfl

@[simp] theorem State.consumeEdge_d (s : State) : s.consumeEdge.d = s.d := rfl

@[simp] theorem State.consumeEdge_pre (s : State) : s.consumeEdge.pre = s.pre := rfl

@[simp] theorem State.consumeEdge_rnd (s : State) : s.consumeEdge.rnd = s.rnd := rfl

@[simp] theorem State.consumeEdge_phase (s : State) : s.consumeEdge.phase = s.phase := rfl

@[simp] theorem State.consumeEdge_dout (s : State) : s.consumeEdge.dout = s.dout := rfl

@[simp] theorem State.consumeEdge_done (s : State) : s.consumeEdge.done = s.done := rfl

@[simp] theorem State.consumeEdge_err (s : State) : s.consumeEdge.err = s.err := rfl

@[simp] theorem State.consumeEdge_edges (s : State) : s.consumeEdge.edges = s.edges.tail := rfl

@[simp] theorem State.consumeEdge_resets (s : State) : s.consumeEdge.resets = s.resets := rfl

/-! ### State.drivenBy -/

@[simp] theorem State.drivenBy_key (s : State) (es : List Edge) : (s.drivenBy es).key = s.key := rfl

@[simp] theorem State.drivenBy_sk (s : State) (es : List Edge) : (s.drivenBy es).sk = s.sk := rfl

@[simp] theorem State.drivenBy_din (s : State) (es : List Edge) : (s.drivenBy es).din = s.din := rfl

@[simp] theorem State.drivenBy_dir (s : State) (es : List Edge) : (s.drivenBy es).dir = s.dir := rfl

@[simp] theorem State.drivenBy_l (s : State) (es : List Edge) : (s.drivenBy es).l = s.l := rfl

@[simp] theorem State.drivenBy_r (s : State) (es : List Edge) : (s.drivenBy es).r = s.r := rfl

@[simp] theorem State.drivenBy_c (s : State) (es : List Edge) : (s.drivenBy es).c = s.c := rfl

@[simp] theorem State.drivenBy_d (s : State) (es : List Edge) : (s.drivenBy es).d = s.d := rfl

@[simp] theorem State.drivenBy_pre (s : State) (es : List Edge) : (s.drivenBy es).pre = s.pre := rfl

@[simp] theorem State.drivenBy_rnd (s : State) (es : List Edge) : (s.drivenBy es).rnd = s.rnd := rfl

@[simp] theorem State.drivenBy_phase (s : State) (es : List Edge) : (s.drivenBy es).phase = s.phase := rfl

@[simp] theorem State.drivenBy_dout (s : State) (es : List Edge) : (s.drivenBy es).dout = s.dout := rfl

@[simp] theorem State.drivenBy_done (s : State) (es : List Edge) : (s.drivenBy es).done = s.done := rfl

@[simp] theorem State.drivenBy_err (s : State) (es : List Edge) : (s.drivenBy es).err = s.err := rfl

@[simp] theorem State.drivenBy_edges (s : State) (es : List Edge) : (s.drivenBy es).edges = es := rfl

@[simp] theorem State.drivenBy_resets (s : State) (es : List Edge) : (s.drivenBy es).resets = s.resets := rfl

/-! ### State.clearStatus -/

@[simp] theorem State.clearStatus_key (s : State) : s.clearStatus.key = s.key := rfl

@[simp] theorem State.clearStatus_sk (s : State) : s.clearStatus.sk = s.sk := rfl

@[simp] theorem State.clearStatus_din (s : State) : s.clearStatus.din = s.din := rfl

@[simp] theorem State.clearStatus_dir (s : State) : s.clearStatus.dir = s.dir := rfl

@[simp] theorem State.clearStatus_l (s : State) : s.clearStatus.l = s.l := rfl

@[simp] theorem State.clearStatus_r (s : State) : s.clearStatus.r = s.r := rfl

@[simp] theorem State.clearStatus_c (s : State) : s.clearStatus.c = s.c := rfl

@[simp] theorem State.clearStatus_d (s : State) : s.clearStatus.d = s.d := rfl

@[simp] theorem State.clearStatus_pre (s : State) : s.clearStatus.pre = s.pre := rfl

@[simp] theorem State.clearStatus_rnd (s : State) : s.clearStatus.rnd = s.rnd := rfl

@[simp] theorem State.clearStatus_phase (s : State) : s.clearStatus.phase = s.phase := rfl

@[simp] theorem State.clearStatus_dout (s : State) : s.clearStatus.dout = s.dout := rfl

@[simp] theorem State.clearStatus_done (s : State) : s.clearStatus.done = false := rfl

@[simp] theorem State.clearStatus_err (s : State) : s.clearStatus.err = false := rfl

@[simp] theorem State.clearStatus_edges (s : State) : s.clearStatus.edges = s.edges := rfl

@[simp] theorem State.clearStatus_resets (s : State) : s.clearStatus.resets = s.resets := rfl

/-! ### State.raiseIllegalCommand -/

@[simp] theorem State.raiseIllegalCommand_key (op : Opcode) (s : State) :
    (s.raiseIllegalCommand op).key = s.key := rfl

@[simp] theorem State.raiseIllegalCommand_sk (op : Opcode) (s : State) : (s.raiseIllegalCommand op).sk = s.sk := rfl

@[simp] theorem State.raiseIllegalCommand_din (op : Opcode) (s : State) :
    (s.raiseIllegalCommand op).din = s.din := rfl

@[simp] theorem State.raiseIllegalCommand_dir (op : Opcode) (s : State) :
    (s.raiseIllegalCommand op).dir = s.dir := rfl

@[simp] theorem State.raiseIllegalCommand_l (op : Opcode) (s : State) : (s.raiseIllegalCommand op).l = s.l := rfl

@[simp] theorem State.raiseIllegalCommand_r (op : Opcode) (s : State) : (s.raiseIllegalCommand op).r = s.r := rfl

@[simp] theorem State.raiseIllegalCommand_c (op : Opcode) (s : State) : (s.raiseIllegalCommand op).c = s.c := rfl

@[simp] theorem State.raiseIllegalCommand_d (op : Opcode) (s : State) : (s.raiseIllegalCommand op).d = s.d := rfl

@[simp] theorem State.raiseIllegalCommand_pre (op : Opcode) (s : State) :
    (s.raiseIllegalCommand op).pre = s.pre := rfl

@[simp] theorem State.raiseIllegalCommand_rnd (op : Opcode) (s : State) :
    (s.raiseIllegalCommand op).rnd = s.rnd := rfl

@[simp] theorem State.raiseIllegalCommand_phase (op : Opcode) (s : State) :
    (s.raiseIllegalCommand op).phase = s.phase := rfl

@[simp] theorem State.raiseIllegalCommand_dout (op : Opcode) (s : State) :
    (s.raiseIllegalCommand op).dout = s.dout := rfl

@[simp] theorem State.raiseIllegalCommand_done (op : Opcode) (s : State) :
    (s.raiseIllegalCommand op).done = s.done := rfl

@[simp] theorem State.raiseIllegalCommand_err (op : Opcode) (s : State) : (s.raiseIllegalCommand op).err = true := rfl

@[simp] theorem State.raiseIllegalCommand_edges (op : Opcode) (s : State) :
    (s.raiseIllegalCommand op).edges = s.edges := rfl

@[simp] theorem State.raiseIllegalCommand_resets (op : Opcode) (s : State) :
    (s.raiseIllegalCommand op).resets = s.resets := rfl

/-! ### State.acceptCipher -/

@[simp] theorem State.acceptCipher_key (dir : BitVec 1) (data : Block) (s : State) :
    (s.acceptCipher dir data).key = s.key := rfl

@[simp] theorem State.acceptCipher_sk (dir : BitVec 1) (data : Block) (s : State) :
    (s.acceptCipher dir data).sk = s.sk := rfl

@[simp] theorem State.acceptCipher_din (dir : BitVec 1) (data : Block) (s : State) :
    (s.acceptCipher dir data).din = data := rfl

@[simp] theorem State.acceptCipher_dir (dir : BitVec 1) (data : Block) (s : State) :
    (s.acceptCipher dir data).dir = dir := rfl

@[simp] theorem State.acceptCipher_l (dir : BitVec 1) (data : Block) (s : State) :
    (s.acceptCipher dir data).l = s.l := rfl

@[simp] theorem State.acceptCipher_r (dir : BitVec 1) (data : Block) (s : State) :
    (s.acceptCipher dir data).r = s.r := rfl

@[simp] theorem State.acceptCipher_c (dir : BitVec 1) (data : Block) (s : State) :
    (s.acceptCipher dir data).c = s.c := rfl

@[simp] theorem State.acceptCipher_d (dir : BitVec 1) (data : Block) (s : State) :
    (s.acceptCipher dir data).d = s.d := rfl

@[simp] theorem State.acceptCipher_pre (dir : BitVec 1) (data : Block) (s : State) :
    (s.acceptCipher dir data).pre = s.pre := rfl

@[simp] theorem State.acceptCipher_rnd (dir : BitVec 1) (data : Block) (s : State) :
    (s.acceptCipher dir data).rnd = s.rnd := rfl

@[simp] theorem State.acceptCipher_phase (dir : BitVec 1) (data : Block) (s : State) :
    (s.acceptCipher dir data).phase = .ciLoad := rfl

@[simp] theorem State.acceptCipher_dout (dir : BitVec 1) (data : Block) (s : State) :
    (s.acceptCipher dir data).dout = s.dout := rfl

@[simp] theorem State.acceptCipher_done (dir : BitVec 1) (data : Block) (s : State) :
    (s.acceptCipher dir data).done = false := rfl

@[simp] theorem State.acceptCipher_err (dir : BitVec 1) (data : Block) (s : State) :
    (s.acceptCipher dir data).err = false := rfl

@[simp] theorem State.acceptCipher_edges (dir : BitVec 1) (data : Block) (s : State) :
    (s.acceptCipher dir data).edges = s.edges := rfl

@[simp] theorem State.acceptCipher_resets (dir : BitVec 1) (data : Block) (s : State) :
    (s.acceptCipher dir data).resets = s.resets := rfl

/-! ### State.presentWord -/

@[simp] theorem State.presentWord_key (s : State) (w : Command) : (s.presentWord w).key = s.key := rfl

@[simp] theorem State.presentWord_sk (s : State) (w : Command) : (s.presentWord w).sk = s.sk := rfl

@[simp] theorem State.presentWord_din (s : State) (w : Command) : (s.presentWord w).din = s.din := rfl

@[simp] theorem State.presentWord_dir (s : State) (w : Command) : (s.presentWord w).dir = s.dir := rfl

@[simp] theorem State.presentWord_l (s : State) (w : Command) : (s.presentWord w).l = s.l := rfl

@[simp] theorem State.presentWord_r (s : State) (w : Command) : (s.presentWord w).r = s.r := rfl

@[simp] theorem State.presentWord_c (s : State) (w : Command) : (s.presentWord w).c = s.c := rfl

@[simp] theorem State.presentWord_d (s : State) (w : Command) : (s.presentWord w).d = s.d := rfl

@[simp] theorem State.presentWord_pre (s : State) (w : Command) : (s.presentWord w).pre = s.pre := rfl

@[simp] theorem State.presentWord_rnd (s : State) (w : Command) : (s.presentWord w).rnd = s.rnd := rfl

@[simp] theorem State.presentWord_phase (s : State) (w : Command) : (s.presentWord w).phase = .idle := rfl

@[simp] theorem State.presentWord_dout (s : State) (w : Command) : (s.presentWord w).dout = s.dout := rfl

@[simp] theorem State.presentWord_done (s : State) (w : Command) : (s.presentWord w).done = s.done := rfl

@[simp] theorem State.presentWord_err (s : State) (w : Command) : (s.presentWord w).err = s.err := rfl

@[simp] theorem State.presentWord_edges (s : State) (w : Command) :
    (s.presentWord w).edges = Edge.command (w.extractLsb' 64 4) (w.extractLsb' 0 64) :: s.edges.tail := rfl

@[simp] theorem State.presentWord_resets (s : State) (w : Command) : (s.presentWord w).resets = s.resets := rfl

/-! ### ksLoad -/

@[simp] theorem ksLoad_key (s : State) : (ksLoad s).key = s.key := rfl

@[simp] theorem ksLoad_sk (s : State) : (ksLoad s).sk = s.sk := rfl

@[simp] theorem ksLoad_din (s : State) : (ksLoad s).din = s.din := rfl

@[simp] theorem ksLoad_dir (s : State) : (ksLoad s).dir = s.dir := rfl

@[simp] theorem ksLoad_l (s : State) : (ksLoad s).l = s.l := rfl

@[simp] theorem ksLoad_r (s : State) : (ksLoad s).r = s.r := rfl

@[simp] theorem ksLoad_c (s : State) : (ksLoad s).c = (splitCD (permute pc1Table s.key)).1 := rfl

@[simp] theorem ksLoad_d (s : State) : (ksLoad s).d = (splitCD (permute pc1Table s.key)).2 := rfl

@[simp] theorem ksLoad_pre (s : State) : (ksLoad s).pre = s.pre := rfl

@[simp] theorem ksLoad_rnd (s : State) : (ksLoad s).rnd = 0#4 := rfl

@[simp] theorem ksLoad_phase (s : State) : (ksLoad s).phase = .ksRound := rfl

@[simp] theorem ksLoad_dout (s : State) : (ksLoad s).dout = s.dout := rfl

@[simp] theorem ksLoad_done (s : State) : (ksLoad s).done = s.done := rfl

@[simp] theorem ksLoad_err (s : State) : (ksLoad s).err = s.err := rfl

@[simp] theorem ksLoad_edges (s : State) : (ksLoad s).edges = s.edges := rfl

@[simp] theorem ksLoad_resets (s : State) : (ksLoad s).resets = s.resets := rfl

/-! ### ksRound -/

@[simp] theorem ksRound_key (s : State) : (ksRound s).key = s.key := rfl

@[simp] theorem ksRound_sk (s : State) :
    (ksRound s).sk =
      s.skWith s.rnd (subkeyOf (rotl28 s.c (entry16 shifts s.rnd)) (rotl28 s.d (entry16 shifts s.rnd))) := rfl

@[simp] theorem ksRound_din (s : State) : (ksRound s).din = s.din := rfl

@[simp] theorem ksRound_dir (s : State) : (ksRound s).dir = s.dir := rfl

@[simp] theorem ksRound_l (s : State) : (ksRound s).l = s.l := rfl

@[simp] theorem ksRound_r (s : State) : (ksRound s).r = s.r := rfl

@[simp] theorem ksRound_c (s : State) : (ksRound s).c = rotl28 s.c (entry16 shifts s.rnd) := rfl

@[simp] theorem ksRound_d (s : State) : (ksRound s).d = rotl28 s.d (entry16 shifts s.rnd) := rfl

@[simp] theorem ksRound_pre (s : State) : (ksRound s).pre = s.pre := rfl

@[simp] theorem ksRound_rnd (s : State) : (ksRound s).rnd = if s.rnd = 15#4 then s.rnd else s.rnd + 1#4 := rfl

@[simp] theorem ksRound_phase (s : State) : (ksRound s).phase = if s.rnd = 15#4 then .idle else s.phase := rfl

@[simp] theorem ksRound_dout (s : State) : (ksRound s).dout = s.dout := rfl

@[simp] theorem ksRound_done (s : State) : (ksRound s).done = s.doneAfterKsRound := rfl

@[simp] theorem ksRound_err (s : State) : (ksRound s).err = s.err := rfl

@[simp] theorem ksRound_edges (s : State) : (ksRound s).edges = s.edges := rfl

@[simp] theorem ksRound_resets (s : State) : (ksRound s).resets = s.resets := rfl

/-! ### ciLoad -/

@[simp] theorem ciLoad_key (s : State) : (ciLoad s).key = s.key := rfl

@[simp] theorem ciLoad_sk (s : State) : (ciLoad s).sk = s.sk := rfl

@[simp] theorem ciLoad_din (s : State) : (ciLoad s).din = s.din := rfl

@[simp] theorem ciLoad_dir (s : State) : (ciLoad s).dir = s.dir := rfl

@[simp] theorem ciLoad_l (s : State) : (ciLoad s).l = (splitLR (permute ipTable s.din)).1 := rfl

@[simp] theorem ciLoad_r (s : State) : (ciLoad s).r = (splitLR (permute ipTable s.din)).2 := rfl

@[simp] theorem ciLoad_c (s : State) : (ciLoad s).c = s.c := rfl

@[simp] theorem ciLoad_d (s : State) : (ciLoad s).d = s.d := rfl

@[simp] theorem ciLoad_pre (s : State) : (ciLoad s).pre = s.pre := rfl

@[simp] theorem ciLoad_rnd (s : State) : (ciLoad s).rnd = 0#4 := rfl

@[simp] theorem ciLoad_phase (s : State) : (ciLoad s).phase = .ciRound := rfl

@[simp] theorem ciLoad_dout (s : State) : (ciLoad s).dout = s.dout := rfl

@[simp] theorem ciLoad_done (s : State) : (ciLoad s).done = s.done := rfl

@[simp] theorem ciLoad_err (s : State) : (ciLoad s).err = s.err := rfl

@[simp] theorem ciLoad_edges (s : State) : (ciLoad s).edges = s.edges := rfl

@[simp] theorem ciLoad_resets (s : State) : (ciLoad s).resets = s.resets := rfl

/-! ### ciRound -/

@[simp] theorem ciRound_key (s : State) : (ciRound s).key = s.key := rfl

@[simp] theorem ciRound_sk (s : State) : (ciRound s).sk = s.sk := rfl

@[simp] theorem ciRound_din (s : State) : (ciRound s).din = s.din := rfl

@[simp] theorem ciRound_dir (s : State) : (ciRound s).dir = s.dir := rfl

@[simp] theorem ciRound_l (s : State) :
    (ciRound s).l = (cipherRound (s.l, s.r) (s.readSk (subkeyOrder s.dir s.rnd))).1 := rfl

@[simp] theorem ciRound_r (s : State) :
    (ciRound s).r = (cipherRound (s.l, s.r) (s.readSk (subkeyOrder s.dir s.rnd))).2 := rfl

@[simp] theorem ciRound_c (s : State) : (ciRound s).c = s.c := rfl

@[simp] theorem ciRound_d (s : State) : (ciRound s).d = s.d := rfl

@[simp] theorem ciRound_pre (s : State) : (ciRound s).pre = s.pre := rfl

@[simp] theorem ciRound_rnd (s : State) : (ciRound s).rnd = if s.rnd = 15#4 then s.rnd else s.rnd + 1#4 := rfl

@[simp] theorem ciRound_phase (s : State) : (ciRound s).phase = if s.rnd = 15#4 then .ciSwap else s.phase := rfl

@[simp] theorem ciRound_dout (s : State) : (ciRound s).dout = s.dout := rfl

@[simp] theorem ciRound_done (s : State) : (ciRound s).done = s.done := rfl

@[simp] theorem ciRound_err (s : State) : (ciRound s).err = s.err := rfl

@[simp] theorem ciRound_edges (s : State) : (ciRound s).edges = s.edges := rfl

@[simp] theorem ciRound_resets (s : State) : (ciRound s).resets = s.resets := rfl

/-! ### ciSwap -/

@[simp] theorem ciSwap_key (s : State) : (ciSwap s).key = s.key := rfl

@[simp] theorem ciSwap_sk (s : State) : (ciSwap s).sk = s.sk := rfl

@[simp] theorem ciSwap_din (s : State) : (ciSwap s).din = s.din := rfl

@[simp] theorem ciSwap_dir (s : State) : (ciSwap s).dir = s.dir := rfl

@[simp] theorem ciSwap_l (s : State) : (ciSwap s).l = s.l := rfl

@[simp] theorem ciSwap_r (s : State) : (ciSwap s).r = s.r := rfl

@[simp] theorem ciSwap_c (s : State) : (ciSwap s).c = s.c := rfl

@[simp] theorem ciSwap_d (s : State) : (ciSwap s).d = s.d := rfl

@[simp] theorem ciSwap_pre (s : State) : (ciSwap s).pre = preOutput (s.l, s.r) := rfl

@[simp] theorem ciSwap_rnd (s : State) : (ciSwap s).rnd = s.rnd := rfl

@[simp] theorem ciSwap_phase (s : State) : (ciSwap s).phase = .ciOut := rfl

@[simp] theorem ciSwap_dout (s : State) : (ciSwap s).dout = s.dout := rfl

@[simp] theorem ciSwap_done (s : State) : (ciSwap s).done = s.done := rfl

@[simp] theorem ciSwap_err (s : State) : (ciSwap s).err = s.err := rfl

@[simp] theorem ciSwap_edges (s : State) : (ciSwap s).edges = s.edges := rfl

@[simp] theorem ciSwap_resets (s : State) : (ciSwap s).resets = s.resets := rfl

/-! ### ciOut -/

@[simp] theorem ciOut_key (s : State) : (ciOut s).key = s.key := rfl

@[simp] theorem ciOut_sk (s : State) : (ciOut s).sk = s.sk := rfl

@[simp] theorem ciOut_din (s : State) : (ciOut s).din = s.din := rfl

@[simp] theorem ciOut_dir (s : State) : (ciOut s).dir = s.dir := rfl

@[simp] theorem ciOut_l (s : State) : (ciOut s).l = s.l := rfl

@[simp] theorem ciOut_r (s : State) : (ciOut s).r = s.r := rfl

@[simp] theorem ciOut_c (s : State) : (ciOut s).c = s.c := rfl

@[simp] theorem ciOut_d (s : State) : (ciOut s).d = s.d := rfl

@[simp] theorem ciOut_pre (s : State) : (ciOut s).pre = s.pre := rfl

@[simp] theorem ciOut_rnd (s : State) : (ciOut s).rnd = s.rnd := rfl

@[simp] theorem ciOut_phase (s : State) : (ciOut s).phase = .idle := rfl

@[simp] theorem ciOut_dout (s : State) : (ciOut s).dout = permute fpTable s.pre := rfl

@[simp] theorem ciOut_done (s : State) : (ciOut s).done = true := rfl

@[simp] theorem ciOut_err (s : State) : (ciOut s).err = s.err := rfl

@[simp] theorem ciOut_edges (s : State) : (ciOut s).edges = s.edges := rfl

@[simp] theorem ciOut_resets (s : State) : (ciOut s).resets = s.resets := rfl

end Sys2Proof.Machine
end

