-- ==== Sys2Proof/Laws/Ops.lean ====
section
/-! SUPPORT. One lemma per shared operation that says what it can do: the fields of a command word, the permutation
engine, the micro-steps, acceptance, the step and runs of several steps. -/

namespace Sys2Proof.Machine

/-! ### Command words -/

@[simp] theorem opField_commandWord (op : Opcode) (data : Block) : opField (commandWord op data) = op := by
  apply BitVec.eq_of_getLsbD_eq
  intro i hi
  have : ¬64 + i < 64 := by omega
  simp only [opField, commandWord, BitVec.getLsbD_extractLsb', BitVec.getLsbD_append, hi, decide_true, Bool.true_and]
  simp [this]

@[simp] theorem dataField_commandWord (op : Opcode) (data : Block) : dataField (commandWord op data) = data := by
  apply BitVec.eq_of_getLsbD_eq
  intro i hi
  simp only [dataField, commandWord, BitVec.getLsbD_extractLsb', BitVec.getLsbD_append, hi, decide_true, Bool.true_and]
  simp [hi]

@[simp] theorem commandWord_fields (w : Command) : commandWord (opField w) (dataField w) = w := by
  apply BitVec.eq_of_getLsbD_eq
  intro i hi
  simp only [opField, dataField, commandWord, BitVec.getLsbD_extractLsb', BitVec.getLsbD_append]
  by_cases h : i < 64
  · simp [h]
  · have h4 : i - 64 < 4 := by omega
    have he : 64 + (i - 64) = i := by omega
    simp [h, h4, he]

theorem decode_commandWord (op : Opcode) (data : Block) : decode (commandWord op data) = decodeFields op data := by
  rw [decode, opField_commandWord, dataField_commandWord]

theorem Edge.word_eq (e : Edge) : e.word = commandWord e.cmdOp e.cmdData := rfl

/-! ### The permutation engine and the key schedule -/

/-- Output entry i is the bit at the position the table names (sequence numbering). -/
theorem permute_getMsbD {n m : Nat} (T : PermTable n m) (v : BitVec n) {i p : Nat} (h : T.entries[i]? = some p) :
    (permute T v).getMsbD i = desBit v p := by
  simp only [permute, BitVec.getMsbD_cast, BitVec.getMsbD_ofBoolListBE]
  simp [h]

/-- A table's entry names a bit of its input. -/
theorem PermTable.entry_inRange {n m : Nat} (T : PermTable n m) {i p : Nat} (h : T.entries[i]? = some p) :
    1 ≤ p ∧ p ≤ n := by
  have hall := T.inRange
  simp only [tableInRange, List.all_eq_true] at hall
  simpa using hall p (List.mem_of_getElem? h)

theorem tableInRange_iff {n : Nat} {entries : List Nat} :
    tableInRange n entries = true ↔ ∀ p ∈ entries, 1 ≤ p ∧ p ≤ n := by
  simp [tableInRange]

theorem ksHalves_succ (k : Block) {i : Nat} (h : i < 16) :
    ksHalves k (i + 1) = (rotl28 (ksHalves k i).1 shifts[i], rotl28 (ksHalves k i).2 shifts[i]) := by
  simp only [ksHalves]
  rw [dif_pos h]

theorem keySchedule_get (k : Block) (i : Fin 16) : (keySchedule k)[i.val] = subkey k i.val := by
  simp [keySchedule]

theorem entry16_keySchedule (k : Block) (i : Round) : entry16 (keySchedule k) i = subkey k i.toNat := by
  simp [entry16, keySchedule]

/-- Below 15 a round index counts on without wrapping (10_state.md R39). -/
theorem round_succ_toNat : ∀ r : Round, r ≠ 15#4 → (r + 1#4).toNat = r.toNat + 1 := by decide

theorem round_ne_last_iff : ∀ r : Round, r ≠ 15#4 ↔ r.toNat < 15 := by decide

/-! ### Micro-steps -/

theorem microStep_idle {s : State} (h : s.phase = .idle) : microStep s = s := by
  simp [microStep, h]

theorem runMicroSteps_idle (n : Nat) {s : State} (h : s.phase = .idle) : runMicroSteps n s = s := by
  induction n with
  | zero => rfl
  | succ n ih => rw [runMicroSteps, microStep_idle h, ih]

theorem runMicroSteps_add (m n : Nat) (s : State) :
    runMicroSteps (m + n) s = runMicroSteps n (runMicroSteps m s) := by
  induction m generalizing s with
  | zero => simp [runMicroSteps]
  | succ m ih => rw [show m + 1 + n = (m + n) + 1 by omega, runMicroSteps, ih, runMicroSteps]

/-- What every micro-step keeps, any number of them keeps. -/
theorem runMicroSteps_keeps {P : State → Prop} (h : ∀ s, P s → P (microStep s)) (n : Nat) :
    ∀ s, P s → P (runMicroSteps n s) := by
  induction n with
  | zero => exact fun _ hs => hs
  | succ n ih => exact fun s hs => ih _ (h s hs)

theorem microStep_key (s : State) : (microStep s).key = s.key := by
  unfold microStep
  cases s.phase <;> simp

theorem microStep_err (s : State) : (microStep s).err = s.err := by
  unfold microStep
  cases s.phase <;> simp

/-- The coming edges are no business of a micro-step. -/
theorem microStep_drivenBy (s : State) (es : List Edge) : microStep (s.drivenBy es) = (microStep s).drivenBy es := by
  simp only [microStep, State.drivenBy_phase]
  cases s.phase <;> rfl

theorem runMicroSteps_drivenBy (n : Nat) (s : State) (es : List Edge) :
    runMicroSteps n (s.drivenBy es) = (runMicroSteps n s).drivenBy es := by
  induction n generalizing s with
  | zero => rfl
  | succ n ih => rw [runMicroSteps, microStep_drivenBy, ih, runMicroSteps]

/-! ### The step -/

theorem step_eq (s : State) :
    step s =
      if s.edge.rst = true then .next s.consumeEdge.resetEdge
      else if s.phase = .idle then idleEdge s.edge s.consumeEdge
      else .next (runMicroSteps s.edge.microSteps s.consumeEdge) := rfl

/-- What a step can do: reset, keep an IDLE block, accept a command, or make the edge's micro-steps. -/
theorem step_cases {s t : State} (h : step s = .next t) :
    (s.edge.rst = true ∧ t = State.resetWith (s.resets + 1) s.edges.tail) ∨
    (s.edge.rst = false ∧ s.phase = .idle ∧ s.edge.cmdValid = false ∧ t = s.consumeEdge) ∨
    (s.edge.rst = false ∧ s.phase = .idle ∧ s.edge.cmdValid = true ∧
      exec (decode s.edge.word) s.consumeEdge = .next t) ∨
    (s.edge.rst = false ∧ s.phase ≠ .idle ∧ t = runMicroSteps s.edge.microSteps s.consumeEdge) := by
  rw [step_eq] at h
  cases hr : s.edge.rst with
  | true =>
    rw [if_pos hr] at h
    injection h with h
    exact .inl ⟨rfl, h.symm⟩
  | false =>
    rw [if_neg (by simp [hr])] at h
    by_cases hp : s.phase = .idle
    · rw [if_pos hp, idleEdge] at h
      cases hv : s.edge.cmdValid with
      | true =>
        rw [if_pos hv] at h
        exact .inr (.inr (.inl ⟨rfl, hp, rfl, h⟩))
      | false =>
        rw [if_neg (by simp [hv])] at h
        injection h with h
        exact .inr (.inl ⟨rfl, hp, rfl, h.symm⟩)
    · rw [if_neg hp] at h
      injection h with h
      exact .inr (.inr (.inr ⟨rfl, hp, h.symm⟩))

/-- What an accepted command can do: start a SETKEY, start a cipher command, or raise IllegalCommand. -/
theorem exec_cases {i : Instr} {s t : State} (h : exec i s = .next t) :
    (∃ data, i = .setkey data ∧ t = { s.clearStatus with key := data, phase := .ksLoad }) ∨
    (∃ data dir, (i = .encrypt data ∧ dir = 0#1 ∨ i = .decrypt data ∧ dir = 1#1) ∧ t = s.acceptCipher dir data) ∨
    (∃ op, (∃ data, i = .illegalZero data ∨ i = .illegalLow op data ∨ i = .illegalHigh op data) ∧
      t = s.clearStatus.raiseIllegalCommand op) := by
  cases i <;> (injection h with h; subst h)
  case setkey data => exact .inl ⟨data, rfl, rfl⟩
  case encrypt data => exact .inr (.inl ⟨data, 0#1, .inl ⟨rfl, rfl⟩, rfl⟩)
  case decrypt data => exact .inr (.inl ⟨data, 1#1, .inr ⟨rfl, rfl⟩, rfl⟩)
  case illegalZero data => exact .inr (.inr ⟨0x0#4, ⟨data, .inl rfl⟩, rfl⟩)
  case illegalLow op data => exact .inr (.inr ⟨op, ⟨data, .inr (.inl rfl)⟩, rfl⟩)
  case illegalHigh op data => exact .inr (.inr ⟨op, ⟨data, .inr (.inr rfl)⟩, rfl⟩)

/-! ### Runs -/

theorem core_run_next (M : Host.Core) (n : Nat) {s t : M.State} (h : M.step s = .next t) :
    M.run (n + 1) s = M.run n t := by
  rw [Host.Core.run, h]

theorem runSteps_zero (s : State) : runSteps 0 s = .next s := rfl

theorem runSteps_next {s t : State} (n : Nat) (h : step s = .next t) : runSteps (n + 1) s = runSteps n t :=
  core_run_next Sys2Proof.core n h

@[simp] theorem State.drivenBy_edge_cons (s : State) (e : Edge) (es : List Edge) :
    (s.drivenBy (e :: es)).edge = e := rfl

@[simp] theorem State.drivenBy_consumeEdge_cons (s : State) (e : Edge) (es : List Edge) :
    (s.drivenBy (e :: es)).consumeEdge = s.drivenBy es := rfl

@[simp] theorem State.drivenBy_drivenBy (s : State) (es es' : List Edge) :
    (s.drivenBy es).drivenBy es' = s.drivenBy es' := rfl

/-- An edge without reset at a busy block, or without a command at an IDLE one, makes its micro-steps. -/
theorem step_of_no_acceptance (s : State) (e : Edge) (es : List Edge) (h : e.rst = false)
    (hv : s.phase ≠ .idle ∨ e.cmdValid = false) :
    step (s.drivenBy (e :: es)) = .next ((runMicroSteps e.microSteps s).drivenBy es) := by
  rw [step_eq, State.drivenBy_edge_cons, State.drivenBy_consumeEdge_cons, h]
  by_cases hp : s.phase = .idle
  · have : e.cmdValid = false := by tauto
    simp [hp, idleEdge, this, runMicroSteps_idle _ hp]
  · simp [hp, runMicroSteps_drivenBy]

/-- Quiet edges make their micro-steps and nothing else. -/
theorem runSteps_quiet (es : List Edge) :
    ∀ s : State, quietEdges es →
      runSteps es.length (s.drivenBy es) = .next ((runMicroSteps (microTotal es) s).drivenBy []) := by
  induction es with
  | nil => exact fun _ _ => rfl
  | cons e es ih =>
    intro s h
    have he := h e (by simp)
    rw [List.length_cons, runSteps_next _ (step_of_no_acceptance s e es he.1 (.inr he.2)),
      ih _ fun x hx => h x (by simp [hx])]
    simp only [microTotal, List.map_cons, List.sum_cons, runMicroSteps_add]

end Sys2Proof.Machine
end

