-- ==== Sys2Proof/Laws/PerInstr.lean ====
section
/-! SUPPORT. The statements made per instruction: the family Row says that the word of a well-formed instruction is of
its own row of spec/opcode_table.json. -/

namespace Sys2Proof.Laws

/-- The word of a command is of the row (W AND mask) = pattern of the opcode table that the command stands for. -/
def Row.Statement (i : Instr) : Prop := i.wellFormed = true → rowMatches i.row (encode i) = true

/-- Masking a command word by opcode bits masks its opcode. -/
theorem Row.matches_of_op {row : OpcodeRow} {mask pattern op : Opcode} (data : Block)
    (hm : row.mask = commandWord mask 0#64) (hp : row.pattern = commandWord pattern 0#64) (h : op &&& mask = pattern) :
    rowMatches row (commandWord op data) = true := by
  have hand : commandWord op data &&& commandWord mask 0#64 = commandWord (op &&& mask) 0#64 := by
    apply BitVec.eq_of_getLsbD_eq
    intro i _
    simp only [commandWord, BitVec.getLsbD_and, BitVec.getLsbD_append]
    by_cases hi : i < 64 <;> simp [hi]
  rw [rowMatches, hm, hp, hand, h, beq_self_eq_true]

theorem Row.setkey (data : Block) : Row.Statement (.setkey data) := fun _ =>
  Row.matches_of_op (row := rowSetkey) (op := 0x1#4) (mask := 0xF#4) (pattern := 0x1#4) data (by decide) (by decide) (by decide)

theorem Row.encrypt (data : Block) : Row.Statement (.encrypt data) := fun _ =>
  Row.matches_of_op (row := rowEncrypt) (op := 0x2#4) (mask := 0xF#4) (pattern := 0x2#4) data (by decide) (by decide) (by decide)

theorem Row.decrypt (data : Block) : Row.Statement (.decrypt data) := fun _ =>
  Row.matches_of_op (row := rowDecrypt) (op := 0x3#4) (mask := 0xF#4) (pattern := 0x3#4) data (by decide) (by decide) (by decide)

theorem Row.illegalZero (data : Block) : Row.Statement (.illegalZero data) := fun _ =>
  Row.matches_of_op (row := rowIllegalZero) (op := 0x0#4) (mask := 0xF#4) (pattern := 0x0#4) data (by decide) (by decide) (by decide)

theorem Row.illegalLow (op : Opcode) (data : Block) : Row.Statement (.illegalLow op data) := fun h =>
  Row.matches_of_op (row := rowIllegalLow) (op := op) (mask := 0xC#4) (pattern := 0x4#4) data (by decide) (by decide)
    ((by decide : ∀ o : Opcode, (o.extractLsb' 2 2 == 1#2) = true → o &&& 0xC#4 = 0x4#4) op h)

theorem Row.illegalHigh (op : Opcode) (data : Block) : Row.Statement (.illegalHigh op data) := fun h =>
  Row.matches_of_op (row := rowIllegalHigh) (op := op) (mask := 0x8#4) (pattern := 0x8#4) data (by decide) (by decide)
    ((by decide : ∀ o : Opcode, (o.extractLsb' 3 1 == 1#1) = true → o &&& 0x8#4 = 0x8#4) op h)

end Sys2Proof.Laws
end

