-- ==== Sys2Proof/Laws/Transaction.lean ====
section
/-! SUPPORT. What the transaction-level model of 43_block_cipher.md R203 can do: a transaction keeps the block IDLE and
does not look at the coming edges, a history splits, and an edge makes one of five things of the command in progress. -/

namespace Sys2Proof.Machine

theorem transact_phase {s : State} (i : Instr) (h : s.phase = .idle) : (s.transact i).phase = .idle := by
  cases i <;> first | rfl | exact h

theorem applyTransaction_phase {s : State} (x : Transaction) (h : s.phase = .idle) :
    (s.applyTransaction x).phase = .idle := by
  cases x with
  | complete i => exact transact_phase i h
  | reset cut => rfl

theorem applyTransaction_drivenBy (s : State) (x : Transaction) (es : List Edge) :
    (s.drivenBy es).applyTransaction x = (s.applyTransaction x).drivenBy es := by
  cases x with
  | complete i => cases i <;> rfl
  | reset cut => rfl

@[simp] theorem transactAll_nil (s : State) : s.transactAll [] = s := rfl

@[simp] theorem transactAll_cons (s : State) (x : Transaction) (xs : List Transaction) :
    s.transactAll (x :: xs) = (s.applyTransaction x).transactAll xs := rfl

theorem transactAll_append (s : State) (xs ys : List Transaction) :
    s.transactAll (xs ++ ys) = (s.transactAll xs).transactAll ys := by
  simp [State.transactAll]

theorem transactAll_phase (xs : List Transaction) :
    ∀ s : State, s.phase = .idle → (s.transactAll xs).phase = .idle := by
  induction xs with
  | nil => exact fun _ h => h
  | cons x xs ih => exact fun s h => ih _ (applyTransaction_phase x h)

theorem transactAll_drivenBy (xs : List Transaction) :
    ∀ (s : State) (es : List Edge), (s.drivenBy es).transactAll xs = (s.transactAll xs).drivenBy es := by
  induction xs with
  | nil => exact fun _ _ => rfl
  | cons x xs ih =>
    intro s es
    rw [transactAll_cons, applyTransaction_drivenBy, ih, transactAll_cons]

theorem transactionsOf_cons (p : Option InProgress) (e : Edge) (es : List Edge) :
    transactionsOf p (e :: es) =
      ((transactEdge p e).1 ++ (transactionsOf (transactEdge p e).2 es).1,
        (transactionsOf (transactEdge p e).2 es).2) := rfl

/-- Everything an edge can make of the command in progress: a reset cuts it, an IDLE block accepts one or keeps still, a
busy one completes its command or comes nearer its end. -/
theorem transactEdge_cases (p : Option InProgress) (e : Edge) :
    (e.rst = true ∧ transactEdge p e = ([.reset (p.map InProgress.command)], none)) ∨
    (e.rst = false ∧ p = none ∧ e.cmdValid = true ∧ transactEdge p e = acceptTransaction (decode e.word)) ∨
    (e.rst = false ∧ p = none ∧ e.cmdValid = false ∧ transactEdge p e = ([], none)) ∨
    (∃ q, e.rst = false ∧ p = some q ∧ q.left ≤ e.microSteps ∧ transactEdge p e = ([.complete q.command], none)) ∨
    (∃ q, e.rst = false ∧ p = some q ∧ e.microSteps < q.left ∧
      transactEdge p e = ([], some { q with left := q.left - e.microSteps })) := by
  cases hr : e.rst with
  | true => exact .inl ⟨rfl, by simp only [transactEdge, if_pos hr]⟩
  | false =>
    have hn : ¬e.rst = true := by simp [hr]
    cases p with
    | none =>
      cases hv : e.cmdValid with
      | true => exact .inr (.inl ⟨rfl, rfl, rfl, by simp only [transactEdge, if_neg hn, if_pos hv]⟩)
      | false => exact .inr (.inr (.inl ⟨rfl, rfl, rfl, by simp [transactEdge, hr, hv]⟩))
    | some q =>
      by_cases hq : q.left ≤ e.microSteps
      · exact .inr (.inr (.inr (.inl ⟨q, rfl, rfl, hq, by simp only [transactEdge, if_neg hn, if_pos hq]⟩)))
      · exact .inr (.inr (.inr (.inr ⟨q, rfl, rfl, by omega, by simp only [transactEdge, if_neg hn, if_neg hq]⟩)))

theorem microStep_resets (s : State) : (microStep s).resets = s.resets := by
  unfold microStep
  cases s.phase <;> simp

/-- The count of resets is no business of a micro-step. -/
theorem runMicroSteps_resets (n : Nat) (s : State) : (runMicroSteps n s).resets = s.resets :=
  runMicroSteps_keeps (P := fun t => t.resets = s.resets) (fun t h => (microStep_resets t).trans h) n s rfl

end Sys2Proof.Machine
end

