-- ==== Sys2Proof/Tests/Slice0.lean ====
section
/-! SUPPORT. Tests on fixed values, each expected value taken from the spec's own tables, and for every statement of
Certificates/Slice0/Obligations.lean with hypotheses a witness that meets them. -/

namespace Sys2Proof.Tests

open Sys2Proof.Machine

/-! ### Well-formedness: each check refuses an ill-formed term -/

theorem test_wf_refuses_illegalLow_op : (Instr.illegalLow 0x3#4 0#64).wellFormed = false := by decide

theorem test_wf_refuses_illegalHigh_op : (Instr.illegalHigh 0x7#4 0#64).wellFormed = false := by decide

theorem test_wf_refuses_table_entry_zero : tableInRange 32 [32, 0] = false := by decide

theorem test_wf_refuses_table_entry_above_width : tableInRange 32 [1, 33] = false := by decide

theorem test_wf_refuses_sbox_row_repeat :
    sboxRowIsPermutation [14, 4, 13, 1, 2, 15, 11, 8, 3, 10, 6, 12, 5, 9, 0, 14] = false := by decide

theorem test_wf_refuses_sbox_row_short : sboxRowIsPermutation [14, 4, 13] = false := by decide

/-! ### Decoding: words written out from 30_encoding.md R80 (op, then 16 data digits; 95_test_vectors.md section 3) -/

theorem test_decode_setkey : decode 0x1133457799BBCDFF1#68 = .setkey 0x133457799BBCDFF1#64 := by decide

theorem test_decode_encrypt : decode 0x25465737465444553#68 = .encrypt 0x5465737465444553#64 := by decide

theorem test_decode_decrypt : decode 0x3DDA0C36864E37B98#68 = .decrypt 0xDDA0C36864E37B98#64 := by decide

theorem test_decode_illegalZero : decode 0x00000000000000000#68 = .illegalZero 0#64 := by decide

theorem test_decode_illegalLow_first : decode 0x40123456789ABCDEF#68 = .illegalLow 0x4#4 0x0123456789ABCDEF#64 := by
  decide

theorem test_decode_illegalLow_last : decode 0x7FFFFFFFFFFFFFFFF#68 = .illegalLow 0x7#4 0xFFFFFFFFFFFFFFFF#64 := by
  decide

theorem test_decode_illegalHigh_first : decode 0x80000000000000000#68 = .illegalHigh 0x8#4 0#64 := by decide

theorem test_decode_illegalHigh_last : decode 0xF133457799BBCDFF1#68 = .illegalHigh 0xF#4 0x133457799BBCDFF1#64 := by
  decide

theorem test_decode_refuses_wider_number : decodeNat (2 ^ 68) = .error .widerThanCommand := by rfl

theorem test_decodeTableWord_row : decodeTableWord 72 0x1133457799BBCDFF1 = some (.setkey 0x133457799BBCDFF1#64) := by
  decide

/-! ### The permutation engine (40_permutation_engine.md R106, R114; 95_test_vectors.md section 2.1) -/

theorem test_permute_ip : permute ipTable 0x0123456789ABCDEF#64 = 0xCC00CCFFF0AAF0AA#64 := by decide +kernel

theorem test_permute_fp : permute fpTable 0x0A4CD99543423234#64 = 0x85E813540F0AB405#64 := by decide +kernel

theorem test_permute_e : permute eTable 0xF0AAF0AA#32 = 0x7A15557A1555#48 := by decide +kernel

theorem test_permute_p : permute pTable 0x5C82B597#32 = 0x234AA9BB#32 := by decide +kernel

theorem test_permute_pc1 : permute pc1Table 0x133457799BBCDFF1#64 = 0xF0CCAAF556678F#56 := by decide +kernel

theorem test_permute_pc2 : permute pc2Table 0xE19955FAACCF1E#56 = 0x1B02EFFC7072#48 := by decide +kernel

theorem test_engine_selects_ip :
    (permutationEngine .ip 0x0000000000000001#64 : BitVec 64) = 0x0000008000000000#64 := by
  show permute ipTable 0x0000000000000001#64 = 0x0000008000000000#64
  decide +kernel

theorem test_permuteChecked_faults : permuteChecked [1, 9] 0#8 = .error .permuteIndexOutOfRange := by rfl

/-! ### The key schedule, the round function and the cipher (41 R133, R137; 42 R168, R171; 43 R199) -/

theorem test_rotl28_wraps : rotl28 0xC000000#28 2 = 0x0000003#28 ∧ rotl28 0xF0CCAAF#28 1 = 0xE19955F#28 := by decide

theorem test_keySchedule_first_and_last :
    (keySchedule 0x133457799BBCDFF1#64)[0] = 0x1B02EFFC7072#48 ∧
    (keySchedule 0x133457799BBCDFF1#64)[15] = 0xCB3D8B0E17F5#48 := by decide +kernel

theorem test_sboxLayer_outer_bits : sboxLayer 0x861861861861#48 = 0xFD13B462#32 := by decide +kernel

theorem test_sboxLayer_inner_bits : sboxLayer 0x79E79E79E79E#48 = 0x7A8F9B17#32 := by decide +kernel

theorem test_feistel : feistel 0xF0AAF0AA#32 0x1B02EFFC7072#48 = 0x234AA9BB#32 := by decide +kernel

theorem test_desEnc : desEnc 0x133457799BBCDFF1#64 0x0123456789ABCDEF#64 = 0x85E813540F0AB405#64 := by decide +kernel

theorem test_desDec : desDec 0x0123456789ABCDEF#64 0x85E813540F0AB405#64 = 0xADD52093511856C4#64 := by decide +kernel

/-! ### Single steps -/

/-- A state of the textbook example (95_test_vectors.md section 2.5) in a phase, with the coming edges. -/
def sample (p : Phase) (es : List Edge) : State where
  key := 0x133457799BBCDFF1#64
  sk := keySchedule 0x133457799BBCDFF1#64
  din := 0x0123456789ABCDEF#64
  dir := 0#1
  l := 0xCC00CCFF#32
  r := 0xF0AAF0AA#32
  c := 0xF0CCAAF#28
  d := 0x556678F#28
  pre := 0x0A4CD99543423234#64
  rnd := 0#4
  phase := p
  dout := 0x0000000000000005#64
  done := false
  err := false
  edges := es
  resets := 0

/-- A property of the state a step leaves; false where the step stops. -/
def stepLeaves (s : State) (p : State → Bool) : Bool :=
  match step s with
  | .next t => p t
  | .fault _ => false
  | .refused _ => false

theorem test_setkey_accepted :
    stepLeaves (sample .idle [Edge.command 0x1#4 0xFFFFFFFFFFFFFFFF#64])
      (fun t => t.key == 0xFFFFFFFFFFFFFFFF#64 && decide (t.phase = .ksLoad) && t.dout == 5#64) = true := by decide +kernel

theorem test_encrypt_accepted :
    stepLeaves (sample .idle [Edge.command 0x2#4 7#64])
      (fun t => t.din == 7#64 && t.dir == 0#1 && decide (t.phase = .ciLoad)) = true := by decide +kernel

theorem test_decrypt_accepted :
    stepLeaves (sample .idle [Edge.command 0x3#4 7#64])
      (fun t => t.din == 7#64 && t.dir == 1#1 && decide (t.phase = .ciLoad)) = true := by decide +kernel

/-- 95_test_vectors.md section 2.6. -/
theorem test_illegal_sets_err :
    stepLeaves { sample .idle [Edge.command 0x7#4 0xFFFFFFFFFFFFFFFF#64] with done := true }
      (fun t => t.err && !t.done && decide (t.phase = .idle) && t.key == 0x133457799BBCDFF1#64) = true := by decide +kernel

theorem test_ksLoad : stepLeaves (sample .ksLoad []) (fun t => t.c == 0xF0CCAAF#28 && t.d == 0x556678F#28) = true := by
  decide +kernel

theorem test_ksRound_first :
    stepLeaves { sample .ksRound [] with sk := Vector.replicate 16 0#48 }
      (fun t => t.c == 0xE19955F#28 && t.d == 0xAACCF1E#28 && t.sk[0] == 0x1B02EFFC7072#48 && t.sk[1] == 0#48 &&
        t.rnd == 1#4) = true := by decide +kernel

/-- 95_test_vectors.md section 2.3, the row of i = 15, from the halves of the row of i = 14. -/
theorem test_ksRound_last :
    stepLeaves { sample .ksRound [] with c := 0xF866557#28, d := 0xAAB33C7#28, rnd := 15#4 }
      (fun t => t.sk[15] == 0xCB3D8B0E17F5#48 && t.done && decide (t.phase = .idle) && t.rnd == 15#4) = true := by
  decide +kernel

theorem test_ciLoad :
    stepLeaves (sample .ciLoad []) (fun t => t.l == 0xCC00CCFF#32 && t.r == 0xF0AAF0AA#32) = true := by decide +kernel

theorem test_ciRound_first :
    stepLeaves (sample .ciRound []) (fun t => t.l == 0xF0AAF0AA#32 && t.r == 0xEF4A6544#32 && t.rnd == 1#4) = true := by
  decide +kernel

/-- 95_test_vectors.md section 2.5, the decryption's row of r = 15: it uses SK[0]. -/
theorem test_ciRound_decrypt_last :
    stepLeaves { sample .ciRound [] with dir := 1#1, l := 0xEF4A6544#32, r := 0xF0AAF0AA#32, rnd := 15#4 }
      (fun t => t.l == 0xF0AAF0AA#32 && t.r == 0xCC00CCFF#32 && decide (t.phase = .ciSwap)) = true := by decide +kernel

theorem test_ciSwap : stepLeaves (sample .ciSwap []) (fun t => t.pre == 0xF0AAF0AACC00CCFF#64) = true := by decide +kernel

theorem test_ciOut :
    stepLeaves (sample .ciOut []) (fun t => t.dout == 0x85E813540F0AB405#64 && t.done) = true := by decide +kernel

/-- 95_test_vectors.md section 2.7: reset beats a presented command. -/
theorem test_reset_beats_command :
    stepLeaves (sample .ksRound [{ Edge.command 0x2#4 0#64 with rst := true }])
      (fun t => decide (t.phase = .idle) && t.dout == 0#64 && !t.done && !t.err) = true := by decide +kernel

theorem test_busy_holds_command :
    stepLeaves (sample .ksRound [Edge.command 0x2#4 9#64]) (fun t => decide (t.phase = .ksRound) && !t.done) = true := by
  decide +kernel

/-- An edge spent inside a micro-step changes nothing (70_reset_and_hazards.md R272). -/
theorem test_edge_without_microstep :
    stepLeaves (sample .ciRound [{ microSteps := 0 }]) (fun t => t.l == 0xCC00CCFF#32 && t.rnd == 0#4) = true := by
  decide +kernel

theorem test_placed_word_runs_from_reset :
    stepLeaves (State.reset.withFetchWord 72 0x20123456789ABCDEF)
      (fun t => t.din == 0x0123456789ABCDEF#64 && decide (t.phase = .ciLoad)) = true := by decide +kernel

/-- 70_reset_and_hazards.md R261, 95_test_vectors.md program P5: the reset at edge 8 discards the SETKEY of edge 2, and the
ENCRYPT held since edge 3 is accepted at edge 9 and completes at edge 28. -/
theorem test_transactions_of_P5 :
    transactionsOf none ([Edge.reset, Edge.command 0x1#4 0x133457799BBCDFF1#64] ++
      List.replicate 5 (Edge.command 0x2#4 0#64) ++ [{ Edge.command 0x2#4 0#64 with rst := true }] ++
      [Edge.command 0x2#4 0#64] ++ List.replicate 19 Edge.quiet) =
    ([.reset none, .reset (some (.setkey 0x133457799BBCDFF1#64)), .complete (.encrypt 0#64)], none) := by decide +kernel

/-! ### Scripts (30_encoding.md R87 to R89) -/

theorem test_script_text_block :
    textBlock ['T', 'e', 's', 't', 'e', 'D', 'E', 'S'] = .ok 0x5465737465444553#64 := by rfl

theorem test_script_refuses_wide_character :
    textBlock ['T', 'e', 's', 't', 'e', 'D', 'E', Char.ofNat 256] = .error .characterAbove255 := by rfl

/-- 30_encoding.md R88 refuses no code but those above 255: a quote (code 34) and a `;` are characters of the text. -/
theorem test_script_text_holds_quotes :
    (parseLine ((['E', 'N', 'C', 'R', 'Y', 'P', 'T', '.', 'A', ' '] ++ [quoteChar]) ++
      ([quoteChar, 'h', 'i', quoteChar] ++ [';', ' ', quoteChar, quoteChar]) ++ [quoteChar, ' ', ';', 'x'])).bind
      (fun f => (f.map ScriptForm.expand).getD (.ok .wait)) =
    .ok (.present 0x2226869223B202222#68) := by rfl

theorem test_script_refuses_ninth_character :
    parseLine (['E', 'N', 'C', 'R', 'Y', 'P', 'T', '.', 'A', ' ', quoteChar] ++
      ['T', 'e', 's', 't', 'e', 'D', 'E', 'S', 'S', quoteChar]) = .error .notEightCharacters := by rfl

theorem test_script_line_cmd :
    parseLine ['C', 'M', 'D', ' ', '7', ',', ' ', '0', '0', '0', '0', '0', '0', '0', '0', '0', '0', '0', '0', '0', '0',
      '0', 'f', ' ', ';', 'x'] = .ok (some (.cmd 0x7#4 0xF#64)) := by rfl

theorem test_script_refuses_short_literal :
    parseLine ['S', 'E', 'T', 'K', 'E', 'Y', ' ', '0', '1'] = .error .badHexLiteral := by rfl

/-- 30_encoding.md R89: `CMD 7, 0000000000000000` is `7_0000000000000000`. -/
theorem test_script_word_text :
    wordText 0x70000000000000000#68 =
      ['7', '_', '0', '0', '0', '0', '0', '0', '0', '0', '0', '0', '0', '0', '0', '0', '0', '0'] := by decide +kernel

/-! ### Witnesses: what meets the hypotheses of each statement -/

theorem witness_DecodeOfEncode :
    (Instr.illegalLow 0x4#4 0#64).wellFormed = true ∧ (Instr.illegalLow 0x7#4 0#64).wellFormed = true ∧
    (Instr.illegalHigh 0x8#4 0#64).wellFormed = true ∧ (Instr.illegalHigh 0xF#4 0#64).wellFormed = true ∧
    (Instr.setkey 0#64).wellFormed = true := by decide

theorem witness_OpcodeMapSelectsByOp :
    (4 ≤ (0x4#4).toNat ∧ (0x4#4).toNat ≤ 7) ∧ (4 ≤ (0x7#4).toNat ∧ (0x7#4).toNat ≤ 7) ∧ 8 ≤ (0x8#4).toNat ∧
    8 ≤ (0xF#4).toNat ∧ ¬8 ≤ (0x7#4).toNat ∧ ¬4 ≤ (0x3#4).toNat := by decide

theorem witness_StepRunsDecodedCommand :
    (sample .idle [Edge.command 0x1#4 0#64]).edge.rst = false ∧ (sample .idle [Edge.command 0x1#4 0#64]).phase = .idle ∧
    (sample .idle [Edge.command 0x1#4 0#64]).edge.cmdValid = true := ⟨rfl, rfl, rfl⟩

theorem witness_PlacedWordRunsNext : (0x1133457799BBCDFF1 : Nat) < 2 ^ 68 ∧ (2 ^ 68 - 1 : Nat) < 2 ^ 68 := by decide

theorem witness_EdgeTakesOneActionInOrder :
    (∀ p : Phase, (sample p []).edge.microSteps = 1 ∧ (sample p []).edge.rst = false ∧ (sample p []).phase = p ∧
      (sample p []).edge.cmdValid = false) ∧
    (sample .idle [Edge.command 0x2#4 0#64]).edge.microSteps = 1 ∧
    (sample .idle [Edge.command 0x2#4 0#64]).edge.cmdValid = true ∧
    (sample .ciOut [Edge.reset]).edge.microSteps = 1 ∧ (sample .ciOut [Edge.reset]).edge.rst = true :=
  ⟨fun _ => ⟨rfl, rfl, rfl, rfl⟩, rfl, rfl, rfl, rfl⟩

theorem witness_BusyBlockIgnoresCommandPorts :
    (sample .ksRound []).phase ≠ .idle ∧ (Edge.command 0x1#4 1#64).rst = false := by decide

theorem witness_IdleBlockKeepsItsState :
    (sample .idle []).phase = .idle ∧ (sample .idle []).edge.rst = false ∧ (sample .idle []).edge.cmdValid = false :=
  ⟨rfl, rfl, rfl⟩

theorem witness_ResetEdgeLeavesResetState : (sample .ksRound [Edge.reset]).edge.rst = true := rfl

theorem witness_ResetLeavesNoTrace :
    (sample .ksRound [Edge.reset]).edges = (sample .ciOut [Edge.reset]).edges ∧
    (sample .ksRound [Edge.reset]).resets = (sample .ciOut [Edge.reset]).resets ∧
    (sample .ksRound [Edge.reset]).edge.rst = true := ⟨rfl, rfl, rfl⟩

theorem witness_IllegalCommandSetsErrOnly :
    (Instr.setkey 1#64).op = 0x1#4 ∧ (Instr.encrypt 1#64).op = 0x2#4 ∧ (Instr.decrypt 1#64).op = 0x3#4 ∧
    (Instr.decrypt 1#64).wellFormed = true := by decide

theorem witness_IllegalWordIgnoresData :
    ∀ op ∈ [0x0#4, 0x4#4, 0x7#4, 0x8#4, 0xF#4], op ≠ 0x1#4 ∧ op ≠ 0x2#4 ∧ op ≠ 0x3#4 := by decide

theorem witness_AcceptanceFrame :
    (∃ t, exec (.illegalZero 1#64) (sample .idle []) = .next t) ∧ (∀ data, Instr.illegalZero 1#64 ≠ .setkey data) ∧
    (∀ data, Instr.setkey 1#64 ≠ .encrypt data ∧ Instr.setkey 1#64 ≠ .decrypt data) ∧
    (∀ data, Instr.illegalZero 1#64 ≠ .setkey data ∧ Instr.illegalZero 1#64 ≠ .encrypt data ∧
      Instr.illegalZero 1#64 ≠ .decrypt data) :=
  ⟨⟨_, rfl⟩, fun _ => nofun, fun _ => ⟨nofun, nofun⟩, fun _ => ⟨nofun, nofun, nofun⟩⟩

/-- The hypotheses of KsLoadMicroStep, KsRoundMicroStep, CiLoadMicroStep, CiRoundMicroStep and CiSwapAndCiOutMicroSteps. -/
theorem witness_MicroSteps (p : Phase) :
    (sample p []).phase = p ∧ (sample p []).edge.rst = false ∧ (sample p []).edge.microSteps = 1 := ⟨rfl, rfl, rfl⟩

theorem witness_KsRoundMicroStep_rounds :
    ({ sample .ksRound [] with rnd := 15#4 } : State).rnd = 15#4 ∧ (sample .ksRound []).rnd ≠ 15#4 ∧
    0xE19955F#28 = rotl28 (sample .ksRound []).c (shifts[(sample .ksRound []).rnd.toNat]'(sample .ksRound []).rnd.isLt) ∧
    0xAACCF1E#28 = rotl28 (sample .ksRound []).d (shifts[(sample .ksRound []).rnd.toNat]'(sample .ksRound []).rnd.isLt) := by
  decide +kernel

theorem witness_CiRoundMicroStep_encrypt :
    (sample .ciRound []).dir = 0#1 ∧
    0x1B02EFFC7072#48 = (sample .ciRound []).sk[(sample .ciRound []).rnd.toNat]'(sample .ciRound []).rnd.isLt := by
  decide +kernel

theorem witness_CiRoundMicroStep_decrypt :
    ({ sample .ciRound [] with dir := 1#1 } : State).dir = 1#1 ∧
    some 0xCB3D8B0E17F5#48 = (sample .ciRound []).sk[15 - (sample .ciRound []).rnd.toNat]? := by decide +kernel

/-- The hypotheses of SetkeyTransaction, EncryptTransaction, DecryptTransaction and, for both lists, of
TimingChangesNoValue. -/
theorem witness_Transactions :
    (sample .idle []).phase = .idle ∧ quietEdges (List.replicate 19 Edge.quiet) ∧
    19 ≤ microTotal (List.replicate 19 Edge.quiet) ∧ quietEdges [{ microSteps := 0 }, { microSteps := 19 }] ∧
    19 ≤ microTotal [{ microSteps := 0 }, { microSteps := 19 }] := by
  unfold quietEdges microTotal
  decide

theorem witness_Transactions_subkeys : (sample .idle []).sk = keySchedule (sample .idle []).key := rfl

theorem witness_TransactionModelAgreesAtIdle :
    ∀ c ∈ [(Instr.setkey 5#64, List.replicate 19 Edge.quiet), (Instr.illegalHigh 0x8#4 0#64, [{ microSteps := 19 }])],
      c.1.wellFormed = true ∧ quietEdges c.2 ∧ 19 ≤ microTotal c.2 := by
  unfold quietEdges microTotal
  decide

/-- The hypothesis of TransactionsOfEveryDriveAgreeAtIdle, and both sides of its second clause: a drive that leaves a
command in progress, and one whose reset cuts it. -/
theorem witness_TransactionsOfEveryDriveAgreeAtIdle :
    (sample .idle []).phase = .idle ∧
    (transactionsOf none [Edge.command 0x1#4 5#64]).2 = some ⟨.setkey 5#64, 17⟩ ∧
    (transactionsOf none [Edge.command 0x1#4 5#64, Edge.quiet, Edge.reset]).2 = none ∧
    ∃ t, runSteps 3 ((sample .idle []).drivenBy [Edge.command 0x1#4 5#64, Edge.quiet, Edge.reset]) = .next t ∧
      t.phase = .idle := by
  refine ⟨rfl, by decide +kernel, by decide +kernel, _, rfl, rfl⟩

theorem witness_SetkeyTakesSeventeenEdges :
    referenceEdges (List.replicate 17 (Edge.command 0x2#4 3#64)) ∧
    (List.replicate 17 (Edge.command 0x2#4 3#64)).length = Config.latSetkey ∧ 0 < Config.latSetkey ∧
    16 < Config.latSetkey := by
  unfold referenceEdges
  decide

theorem witness_CipherTakesNineteenEdges :
    referenceEdges (List.replicate 19 (Edge.command 0x1#4 3#64)) ∧
    (List.replicate 19 (Edge.command 0x1#4 3#64)).length = Config.latCipher ∧
    (((0x2#4 : Opcode) = 0x2#4 ∧ (0#1 : BitVec 1) = 0#1) ∨ ((0x2#4 : Opcode) = 0x3#4 ∧ (0#1 : BitVec 1) = 1#1)) ∧
    (((0x3#4 : Opcode) = 0x2#4 ∧ (1#1 : BitVec 1) = 0#1) ∨ ((0x3#4 : Opcode) = 0x3#4 ∧ (1#1 : BitVec 1) = 1#1)) ∧
    18 < Config.latCipher := by
  unfold referenceEdges
  decide

theorem witness_PermuteTakesTableBit :
    ipTable.entries[0]? = some 58 ∧ ipTable.entries[63]? = some 7 ∧ pc2Table.entries[47]? = some 32 := by decide

theorem witness_OutOfRangeTableFaults :
    (∃ p ∈ [1, 9], p < 1 ∨ 8 < p) ∧ (∃ p ∈ [0], p < 1 ∨ 8 < p) ∧ (∀ p ∈ [1, 8, 8], 1 ≤ p ∧ p ≤ 8) ∧
    [1, 8, 8][2]? = some 8 := by decide

theorem witness_RotationsAccumulateAndReturn : 0 < 16 ∧ 15 < 16 := by decide

theorem witness_ParityBitsDoNotReachSubkeys : sameEffectiveKey 0x133457799BBCDFF1#64 0x133457799BBCDFF0#64 := by
  unfold sameEffectiveKey
  decide

theorem witness_WeakKeyEncryptsTwiceToSame :
    (0x0101010101010101#64, 0x000000000000#48) ∈
      [(0x0101010101010101#64, 0x000000000000#48), (0xFEFEFEFEFEFEFEFE#64, 0xFFFFFFFFFFFF#48),
        (0xE0E0E0E0F1F1F1F1#64, 0xFFFFFF000000#48), (0x1F1F1F1F0E0E0E0E#64, 0x000000FFFFFF#48)] := by decide

theorem witness_SboxLookupNeverDefaults :
    ¬((8 < 8) ∧ (0 < 4) ∧ (0 < 16)) ∧ ¬((7 < 8) ∧ (4 < 4) ∧ (0 < 16)) ∧ ¬((7 < 8) ∧ (3 < 4) ∧ (16 < 16)) := by decide

/-- The hypotheses of the three invariant statements hold at a busy state with a next state. -/
theorem witness_StepKeepsInvariants :
    (sample .ksRound []).subkeysFit ∧ (sample .ciRound []).cipherOnTrack ∧ (sample .ciRound []).statusFits ∧
    (∃ t, step (sample .ksRound []) = .next t) ∧ ∃ t, step (sample .ciRound []) = .next t := by
  refine ⟨⟨by decide +kernel, fun i h => absurd h (by simp [sample])⟩, ?_, ?_, ⟨_, rfl⟩, ⟨_, rfl⟩⟩
  · show ((sample .ciRound []).l, (sample .ciRound []).r) =
      cipherHalves (sample .ciRound []).din (sample .ciRound []).sk (sample .ciRound []).dir 0
    decide +kernel
  · simp [State.statusFits, sample]

theorem witness_EveryRunKeepsSubkeysOfKeyAtIdle :
    ∃ t, runSteps 1 (State.reset.drivenBy [Edge.command 0x7#4 0#64]) = .next t ∧ t.phase = .idle := ⟨_, rfl, rfl⟩

theorem witness_CompletionWritesDesResult :
    (sample .ciOut []).subkeysFit ∧ (sample .ciOut []).cipherOnTrack ∧ (sample .ciOut []).phase = .ciOut ∧
    (sample .ciOut []).edge.rst = false ∧ (sample .ciOut []).edge.microSteps = 1 ∧ (sample .ciOut []).dir = 0#1 := by
  refine ⟨rfl, ?_, rfl, rfl, rfl, rfl⟩
  show (sample .ciOut []).pre =
    preOutput (cipherHalves (sample .ciOut []).din (sample .ciOut []).sk (sample .ciOut []).dir 16)
  decide +kernel

theorem witness_OnlySetkeyAndResetWriteKey :
    ∃ t, step (sample .idle [Edge.command 0x1#4 5#64]) = .next t ∧ t.key ≠ (sample .idle []).key :=
  ⟨_, rfl, by decide⟩

theorem witness_OnlyKsRoundAndResetWriteSubkeys :
    ∃ t, step { sample .ksRound [] with sk := Vector.replicate 16 0#48 } = .next t ∧
      t.sk[0] ≠ (Vector.replicate 16 0#48)[0] := ⟨_, rfl, by decide +kernel⟩

theorem witness_OnlyCiOutAndResetWriteDout :
    ∃ t, step (sample .ciOut []) = .next t ∧ t.dout ≠ (sample .ciOut []).dout ∧
      (sample .ciOut []).edge.microSteps = 1 := ⟨_, rfl, by decide +kernel, rfl⟩

theorem witness_HiddenRegistersNeverReachPorts :
    (sample .ciSwap []).indistinguishable { sample .ciSwap [] with din := 1#64, c := 2#28, pre := 3#64, rnd := 9#4 } :=
  ⟨rfl, rfl, rfl, rfl, rfl, rfl, rfl, rfl, rfl⟩

theorem witness_ScriptCommandHeldUntilAccepted :
    ({ state := sample .ksRound [], lines := [.present 0#68], pace := [], checks := [] } : ScriptRun).lines =
      .present 0#68 :: [] ∧ (sample .ksRound []).phase ≠ .idle ∧ (sample .idle []).phase = .idle :=
  ⟨rfl, by decide, rfl⟩

end Sys2Proof.Tests
end

section
/-! PROOFS. The state of the block (10_state.md): what an edge does, which registers it writes, the invariants every
step keeps, and that no unspecified register reaches a port. -/

namespace Sys2Proof.Machine

/-! ### The rules of one edge: which branch of the step it takes (10_state.md R53) -/

theorem step_of_rst {s : State} (hrst : s.edge.rst = true) : step s = .next s.consumeEdge.resetEdge := by
  rw [step_eq, if_pos hrst]

theorem step_of_idle {s : State} (hrst : s.edge.rst = false) (hidle : s.phase = .idle) :
    step s = idleEdge s.edge s.consumeEdge := by
  simp [step_eq, hrst, hidle]

theorem step_of_accept {s : State} (hrst : s.edge.rst = false) (hidle : s.phase = .idle)
    (hvalid : s.edge.cmdValid = true) : step s = exec (decode s.edge.word) s.consumeEdge := by
  rw [step_of_idle hrst hidle, idleEdge, if_pos hvalid]

theorem step_of_idle_quiet {s : State} (hrst : s.edge.rst = false) (hidle : s.phase = .idle)
    (hvalid : s.edge.cmdValid = false) : step s = .next s.consumeEdge := by
  simp [step_of_idle hrst hidle, idleEdge, hvalid]

theorem step_of_busy {s : State} (hrst : s.edge.rst = false) (hbusy : s.phase ≠ .idle) :
    step s = .next (runMicroSteps s.edge.microSteps s.consumeEdge) := by
  simp [step_eq, hrst, hbusy]

theorem runMicroSteps_one (s : State) : runMicroSteps 1 s = microStep s := rfl

/-- In the reference timing a busy block makes one micro-step (70_reset_and_hazards.md R272). -/
theorem step_of_busy_reference {s : State} (hrst : s.edge.rst = false) (hbusy : s.phase ≠ .idle)
    (hone : s.edge.microSteps = 1) : step s = .next (microStep s.consumeEdge) := by
  rw [step_of_busy hrst hbusy, hone, runMicroSteps_one]

/-! ### The micro-step each phase names -/

theorem microStep_of_ksLoad {s : State} (h : s.phase = .ksLoad) : microStep s = ksLoad s := by
  cases s; cases h; rfl

theorem microStep_of_ksRound {s : State} (h : s.phase = .ksRound) : microStep s = ksRound s := by
  cases s; cases h; rfl

theorem microStep_of_ciLoad {s : State} (h : s.phase = .ciLoad) : microStep s = ciLoad s := by
  cases s; cases h; rfl

theorem microStep_of_ciRound {s : State} (h : s.phase = .ciRound) : microStep s = ciRound s := by
  cases s; cases h; rfl

theorem microStep_of_ciSwap {s : State} (h : s.phase = .ciSwap) : microStep s = ciSwap s := by
  cases s; cases h; rfl

theorem microStep_of_ciOut {s : State} (h : s.phase = .ciOut) : microStep s = ciOut s := by
  cases s; cases h; rfl

/-! ### Decoding and acceptance -/

theorem opcode_low_range :
    ∀ op : Opcode, op ≠ 0x1#4 → op ≠ 0x2#4 → op ≠ 0x3#4 → op ≠ 0x0#4 → op.extractLsb' 3 1 = 0#1 →
      op.extractLsb' 2 2 = 1#2 := by decide

theorem opcode_high_range : ∀ op : Opcode, op.extractLsb' 3 1 ≠ 0#1 → op.extractLsb' 3 1 = 1#1 := by decide

theorem decodeFields_wellFormed (op : Opcode) (data : Block) : (decodeFields op data).wellFormed = true := by
  unfold decodeFields
  split_ifs with h1 h2 h3 h0 hlow
  · rfl
  · rfl
  · rfl
  · rfl
  · simp [Instr.wellFormed, opcode_low_range op h1 h2 h3 h0 hlow]
  · simp [Instr.wellFormed, opcode_high_range op hlow]

theorem decode_wellFormed (w : Command) : (decode w).wellFormed = true := decodeFields_wellFormed _ _

/-- Only the opcode 0x1 is a SETKEY, and its key is the whole data field (30_encoding.md R82, R83). -/
theorem decodeFields_eq_setkey_iff {op : Opcode} {data key : Block} :
    decodeFields op data = .setkey key ↔ op = 0x1#4 ∧ data = key := by
  unfold decodeFields
  split_ifs <;> simp_all

theorem Edge.decode_word_eq_setkey_iff {e : Edge} {key : Block} :
    decode e.word = .setkey key ↔ e.cmdOp = 0x1#4 ∧ e.cmdData = key := by
  rw [Edge.word_eq, decode_commandWord, decodeFields_eq_setkey_iff]

theorem exec_hasNext (i : Instr) (s : State) : ∃ t, exec i s = .next t := by
  cases i <;> exact ⟨_, rfl⟩

/-- Acceptance writes no subkey (10_state.md R33). -/
theorem exec_sk {i : Instr} {s t : State} (h : exec i s = .next t) : t.sk = s.sk := by
  obtain ⟨_, _, rfl⟩ | ⟨_, _, _, rfl⟩ | ⟨_, _, rfl⟩ := exec_cases h
  · rfl
  · rfl
  · rfl

/-- Acceptance keeps the previous result in DOUT (10_state.md R41). -/
theorem exec_dout {i : Instr} {s t : State} (h : exec i s = .next t) : t.dout = s.dout := by
  obtain ⟨_, _, rfl⟩ | ⟨_, _, _, rfl⟩ | ⟨_, _, rfl⟩ := exec_cases h
  · rfl
  · rfl
  · rfl

/-- No command but SETKEY writes KEY at its acceptance (10_state.md R32). -/
theorem exec_key {i : Instr} {s t : State} (h : exec i s = .next t) : i = .setkey t.key ∨ t.key = s.key := by
  obtain ⟨_, rfl, rfl⟩ | ⟨_, _, _, rfl⟩ | ⟨_, _, rfl⟩ := exec_cases h
  · exact .inl rfl
  · exact .inr rfl
  · exact .inr rfl

theorem step_hasNext (s : State) : ∃ t, step s = .next t := by
  cases hrst : s.edge.rst with
  | true => exact ⟨_, step_of_rst hrst⟩
  | false =>
    by_cases hidle : s.phase = .idle
    · cases hvalid : s.edge.cmdValid with
      | true => simpa only [step_of_accept hrst hidle hvalid] using exec_hasNext _ _
      | false => exact ⟨_, step_of_idle_quiet hrst hidle hvalid⟩
    · exact ⟨_, step_of_busy hrst hidle⟩

/-! ### What a micro-step writes -/

theorem runMicroSteps_key (n : Nat) (s : State) : (runMicroSteps n s).key = s.key :=
  runMicroSteps_keeps (P := fun t => t.key = s.key) (fun t h => (microStep_key t).trans h) n s rfl

theorem microStep_sk_of_ne_ksRound {s : State} (h : s.phase ≠ .ksRound) : (microStep s).sk = s.sk := by
  cases hp : s.phase with
  | idle => rw [microStep_idle hp]
  | ksLoad => rw [microStep_of_ksLoad hp, ksLoad_sk]
  | ksRound => exact absurd hp h
  | ciLoad => rw [microStep_of_ciLoad hp, ciLoad_sk]
  | ciRound => rw [microStep_of_ciRound hp, ciRound_sk]
  | ciSwap => rw [microStep_of_ciSwap hp, ciSwap_sk]
  | ciOut => rw [microStep_of_ciOut hp, ciOut_sk]

theorem microStep_dout_of_ne_ciOut {s : State} (h : s.phase ≠ .ciOut) : (microStep s).dout = s.dout := by
  cases hp : s.phase with
  | idle => rw [microStep_idle hp]
  | ksLoad => rw [microStep_of_ksLoad hp, ksLoad_dout]
  | ksRound => rw [microStep_of_ksRound hp, ksRound_dout]
  | ciLoad => rw [microStep_of_ciLoad hp, ciLoad_dout]
  | ciRound => rw [microStep_of_ciRound hp, ciRound_dout]
  | ciSwap => rw [microStep_of_ciSwap hp, ciSwap_dout]
  | ciOut => exact absurd hp h

/-- KS_ROUND writes the one subkey at RND (10_state.md R33). -/
theorem skWith_get_of_ne (s : State) {r : Round} (v : Subkey) {i : Fin 16} (h : r.toNat ≠ i.val) :
    (s.skWith r v)[i.val] = s.sk[i.val] := by
  rw [State.skWith, Vector.getElem_set_ne _ _ h]

theorem skWith_get_same (s : State) {r : Round} (v : Subkey) {i : Fin 16} (h : r.toNat = i.val) :
    (s.skWith r v)[i.val] = v := by
  simp [State.skWith, h]

/-! ### An invariant of the step, and of every run -/

/-- What holds after every reset, is kept by taking an edge off the list, by acceptance at IDLE and by every micro-step
is kept by every step. -/
theorem step_keeps {P : State → Prop} (hreset : ∀ n es, P (State.resetWith n es))
    (hconsume : ∀ s, P s → P s.consumeEdge)
    (haccept : ∀ i s t, s.phase = .idle → P s → exec i s = .next t → P t)
    (hmicro : ∀ s, P s → P (microStep s)) {s t : State} (hs : P s) (h : step s = .next t) : P t := by
  obtain ⟨_, rfl⟩ | ⟨_, _, _, rfl⟩ | ⟨_, hidle, _, hexec⟩ | ⟨_, _, rfl⟩ := step_cases h
  · exact hreset _ _
  · exact hconsume s hs
  · exact haccept _ s.consumeEdge t hidle (hconsume s hs) hexec
  · exact runMicroSteps_keeps hmicro _ _ (hconsume s hs)

theorem runSteps_keeps {P : State → Prop} (hstep : ∀ s t, P s → step s = .next t → P t) (n : Nat) {s t : State}
    (hs : P s) (h : runSteps n s = .next t) : P t := by
  induction n generalizing s with
  | zero =>
    rw [runSteps_zero] at h
    injection h with h
    exact h ▸ hs
  | succ n ih =>
    obtain ⟨u, hu⟩ := step_hasNext s
    rw [runSteps_next n hu] at h
    exact ih (hstep s u hs hu) h

/-! ### SK fits KEY (10_state.md R50) -/

theorem State.subkeysFit_of_ksLoad {s : State} (h : s.phase = .ksLoad) : s.subkeysFit := by
  cases s; cases h; trivial

theorem State.subkeysFit_iff_of_ksRound {s : State} (h : s.phase = .ksRound) :
    s.subkeysFit ↔ (s.c, s.d) = ksHalves s.key s.rnd.toNat ∧
      ∀ i : Fin 16, i.val < s.rnd.toNat → s.sk[i.val] = subkey s.key i.val := by
  cases s; cases h; exact Iff.rfl

/-- Outside a SETKEY the invariant says that SK is the schedule of KEY. -/
theorem State.subkeysFit_iff_of_not_setkey {s : State} (hload : s.phase ≠ .ksLoad) (hround : s.phase ≠ .ksRound) :
    s.subkeysFit ↔ s.sk = keySchedule s.key := by
  cases hp : s.phase with
  | ksLoad => exact absurd hp hload
  | ksRound => exact absurd hp hround
  | idle | ciLoad | ciRound | ciSwap | ciOut => cases s; cases hp; exact Iff.rfl

theorem State.subkeysFit_iff_of_idle {s : State} (h : s.phase = .idle) : s.subkeysFit ↔ s.sk = keySchedule s.key :=
  State.subkeysFit_iff_of_not_setkey (by simp [h]) (by simp [h])

theorem keySchedule_eq_of_subkeys {sk : Subkeys} {k : Block} (h : ∀ i : Fin 16, sk[i.val] = subkey k i.val) :
    sk = keySchedule k := by
  ext1 i hi
  rw [h ⟨i, hi⟩, keySchedule_get k ⟨i, hi⟩]

/-- The rotation of KS_ROUND takes the halves of the schedule from round RND to the next (41_key_schedule.md R134). -/
theorem ksRound_halves {s : State} (h : (s.c, s.d) = ksHalves s.key s.rnd.toNat) :
    ((ksRound s).c, (ksRound s).d) = ksHalves s.key (s.rnd.toNat + 1) := by
  rw [ksHalves_succ s.key s.rnd.isLt, ← h]
  rfl

/-- After KS_ROUND the subkeys up to and with RND are those of KEY (41_key_schedule.md R135, R139). -/
theorem ksRound_subkeys {s : State} (hcd : (s.c, s.d) = ksHalves s.key s.rnd.toNat)
    (hsk : ∀ i : Fin 16, i.val < s.rnd.toNat → s.sk[i.val] = subkey s.key i.val) (i : Fin 16)
    (hi : i.val < s.rnd.toNat + 1) : (ksRound s).sk[i.val] = subkey s.key i.val := by
  have hnew : subkeyOf (ksRound s).c (ksRound s).d = subkey s.key s.rnd.toNat := by
    rw [subkey, ← ksRound_halves hcd]
  simp only [ksRound_sk]
  by_cases hir : s.rnd.toNat = i.val
  · rw [skWith_get_same s _ hir, ← hir]
    exact hnew
  · rw [skWith_get_of_ne s _ hir]
    exact hsk i (by omega)

theorem ksLoad_subkeysFit (s : State) : (ksLoad s).subkeysFit := by
  rw [State.subkeysFit_iff_of_ksRound (ksLoad_phase s)]
  exact ⟨rfl, fun i hi => absurd hi (Nat.not_lt_zero i.val)⟩

theorem ksRound_subkeysFit {s : State} (hp : s.phase = .ksRound) (h : s.subkeysFit) : (ksRound s).subkeysFit := by
  obtain ⟨hcd, hsk⟩ := (State.subkeysFit_iff_of_ksRound hp).mp h
  by_cases hlast : s.rnd = 15#4
  · rw [State.subkeysFit_iff_of_idle (by simp [hlast])]
    refine keySchedule_eq_of_subkeys fun i => ksRound_subkeys hcd hsk i ?_
    simp [hlast]
  · have hrnd : (ksRound s).rnd.toNat = s.rnd.toNat + 1 := by
      rw [ksRound_rnd, if_neg hlast, round_succ_toNat _ hlast]
    rw [State.subkeysFit_iff_of_ksRound (by simp [hlast, hp]), hrnd]
    exact ⟨ksRound_halves hcd, ksRound_subkeys hcd hsk⟩

/-- A SETKEY is started at acceptance alone: no micro-step enters its phases from outside them. -/
theorem microStep_phase_of_not_setkey {s : State} (hload : s.phase ≠ .ksLoad) (hround : s.phase ≠ .ksRound) :
    (microStep s).phase ≠ .ksLoad ∧ (microStep s).phase ≠ .ksRound := by
  cases hp : s.phase with
  | idle => simp [microStep_idle hp, hp]
  | ksLoad => exact absurd hp hload
  | ksRound => exact absurd hp hround
  | ciLoad => simp [microStep_of_ciLoad hp]
  | ciRound =>
    rw [microStep_of_ciRound hp, ciRound_phase, hp]
    split_ifs <;> simp
  | ciSwap => simp [microStep_of_ciSwap hp]
  | ciOut => simp [microStep_of_ciOut hp]

theorem microStep_keeps_subkeysFit (s : State) (h : s.subkeysFit) : (microStep s).subkeysFit := by
  by_cases hload : s.phase = .ksLoad
  · rw [microStep_of_ksLoad hload]
    exact ksLoad_subkeysFit s
  by_cases hround : s.phase = .ksRound
  · rw [microStep_of_ksRound hround]
    exact ksRound_subkeysFit hround h
  obtain ⟨hload', hround'⟩ := microStep_phase_of_not_setkey hload hround
  rw [State.subkeysFit_iff_of_not_setkey hload' hround', microStep_key, microStep_sk_of_ne_ksRound hround]
  exact (State.subkeysFit_iff_of_not_setkey hload hround).mp h

theorem exec_keeps_subkeysFit (i : Instr) (s t : State) (hidle : s.phase = .idle) (hs : s.subkeysFit)
    (h : exec i s = .next t) : t.subkeysFit := by
  rw [State.subkeysFit_iff_of_idle hidle] at hs
  obtain ⟨_, _, rfl⟩ | ⟨_, _, _, rfl⟩ | ⟨_, _, rfl⟩ := exec_cases h
  · exact State.subkeysFit_of_ksLoad rfl
  · exact (State.subkeysFit_iff_of_not_setkey (by simp) (by simp)).mpr hs
  · exact (State.subkeysFit_iff_of_idle (by simp [hidle])).mpr hs

theorem State.resetWith_subkeysFit (n : Nat) (es : List Edge) : (State.resetWith n es).subkeysFit :=
  (State.subkeysFit_iff_of_idle rfl).mpr rfl

theorem State.drivenBy_subkeysFit {s : State} (es : List Edge) : (s.drivenBy es).subkeysFit ↔ s.subkeysFit := Iff.rfl

theorem step_keeps_subkeysFit {s t : State} (hs : s.subkeysFit) (h : step s = .next t) : t.subkeysFit :=
  step_keeps State.resetWith_subkeysFit (fun s => (State.drivenBy_subkeysFit s.edges.tail).mpr) exec_keeps_subkeysFit
    microStep_keeps_subkeysFit hs h

/-! ### DONE and ERR (10_state.md R42, R43) -/

theorem State.statusFits_of_idle {s : State} (hidle : s.phase = .idle) (h : ¬(s.done = true ∧ s.err = true)) :
    s.statusFits :=
  ⟨h, fun hbusy => absurd hidle hbusy⟩

theorem State.statusFits_of_clear {s : State} (hdone : s.done = false) (herr : s.err = false) : s.statusFits :=
  ⟨by simp [hdone], fun _ => ⟨hdone, herr⟩⟩

theorem State.resetWith_statusFits (n : Nat) (es : List Edge) : (State.resetWith n es).statusFits :=
  State.statusFits_of_clear rfl rfl

/-- A micro-step that leaves the block busy does not set DONE. -/
theorem microStep_done_of_busy {s : State} (h : (microStep s).phase ≠ .idle) : (microStep s).done = s.done := by
  cases hp : s.phase with
  | idle => rw [microStep_idle hp]
  | ksLoad => rw [microStep_of_ksLoad hp, ksLoad_done]
  | ksRound =>
    have hrnd : s.rnd ≠ 15#4 := fun hlast => h (by simp [microStep_of_ksRound hp, hlast])
    rw [microStep_of_ksRound hp, ksRound_done, State.doneAfterKsRound, if_neg hrnd]
  | ciLoad => rw [microStep_of_ciLoad hp, ciLoad_done]
  | ciRound => rw [microStep_of_ciRound hp, ciRound_done]
  | ciSwap => rw [microStep_of_ciSwap hp, ciSwap_done]
  | ciOut => exact absurd (by rw [microStep_of_ciOut hp, ciOut_phase]) h

theorem microStep_keeps_statusFits (s : State) (h : s.statusFits) : (microStep s).statusFits := by
  by_cases hidle : s.phase = .idle
  · rwa [microStep_idle hidle]
  obtain ⟨hdone, herr⟩ := h.2 hidle
  have herr' : (microStep s).err = false := (microStep_err s).trans herr
  by_cases hidle' : (microStep s).phase = .idle
  · exact State.statusFits_of_idle hidle' (by simp [herr'])
  · exact State.statusFits_of_clear ((microStep_done_of_busy hidle').trans hdone) herr'

theorem exec_keeps_statusFits (i : Instr) (s t : State) (hidle : s.phase = .idle) (_ : s.statusFits)
    (h : exec i s = .next t) : t.statusFits := by
  obtain ⟨_, _, rfl⟩ | ⟨_, _, _, rfl⟩ | ⟨_, _, rfl⟩ := exec_cases h
  · exact State.statusFits_of_clear rfl rfl
  · exact State.statusFits_of_clear rfl rfl
  · exact State.statusFits_of_idle (by simp [hidle]) (by simp)

theorem State.cipherOnTrack_of_idle {s : State} (h : s.phase = .idle) : s.cipherOnTrack := by
  cases s; cases h; trivial

/-! ### States the ports cannot tell apart (10_state.md R49, R52) -/

section
variable {s t : State}

theorem State.sameLive_of_idle (h : s.phase = .idle) : s.sameLive t := by
  cases s; cases h; trivial

theorem State.sameLive_of_ksLoad (h : s.phase = .ksLoad) : s.sameLive t := by
  cases s; cases h; trivial

theorem State.sameLive_iff_of_ksRound (h : s.phase = .ksRound) :
    s.sameLive t ↔ s.c = t.c ∧ s.d = t.d ∧ s.rnd = t.rnd := by
  cases s; cases h; exact Iff.rfl

theorem State.sameLive_iff_of_ciLoad (h : s.phase = .ciLoad) : s.sameLive t ↔ s.din = t.din ∧ s.dir = t.dir := by
  cases s; cases h; exact Iff.rfl

theorem State.sameLive_iff_of_ciRound (h : s.phase = .ciRound) :
    s.sameLive t ↔ s.l = t.l ∧ s.r = t.r ∧ s.rnd = t.rnd ∧ s.dir = t.dir := by
  cases s; cases h; exact Iff.rfl

theorem State.sameLive_iff_of_ciSwap (h : s.phase = .ciSwap) : s.sameLive t ↔ s.l = t.l ∧ s.r = t.r := by
  cases s; cases h; exact Iff.rfl

theorem State.sameLive_iff_of_ciOut (h : s.phase = .ciOut) : s.sameLive t ↔ s.pre = t.pre := by
  cases s; cases h; exact Iff.rfl

theorem ksLoad_indistinguishable (h : s.indistinguishable t) : (ksLoad s).indistinguishable (ksLoad t) := by
  obtain ⟨hkey, hsk, -, hdout, hdone, herr, hedges, -⟩ := h
  refine ⟨hkey, hsk, rfl, hdout, hdone, herr, hedges, ?_⟩
  rw [State.sameLive_iff_of_ksRound (ksLoad_phase s)]
  simp [hkey]

theorem ksRound_indistinguishable (hp : s.phase = .ksRound) (h : s.indistinguishable t) :
    (ksRound s).indistinguishable (ksRound t) := by
  obtain ⟨hkey, hsk, hphase, hdout, hdone, herr, hedges, hlive⟩ := h
  obtain ⟨hc, hd, hrnd⟩ := (State.sameLive_iff_of_ksRound hp).mp hlive
  refine ⟨hkey, ?_, ?_, hdout, ?_, herr, hedges, ?_⟩
  · simp [State.skWith, hsk, hc, hd, hrnd]
  · simp [hphase, hrnd]
  · simp [State.doneAfterKsRound, hdone, hrnd]
  · by_cases hlast : s.rnd = 15#4
    · exact State.sameLive_of_idle (by simp [hlast])
    · rw [State.sameLive_iff_of_ksRound (by simp [hlast, hp])]
      simp [hc, hd, hrnd]

theorem ciLoad_indistinguishable (hp : s.phase = .ciLoad) (h : s.indistinguishable t) :
    (ciLoad s).indistinguishable (ciLoad t) := by
  obtain ⟨hkey, hsk, -, hdout, hdone, herr, hedges, hlive⟩ := h
  obtain ⟨hdin, hdir⟩ := (State.sameLive_iff_of_ciLoad hp).mp hlive
  refine ⟨hkey, hsk, rfl, hdout, hdone, herr, hedges, ?_⟩
  rw [State.sameLive_iff_of_ciRound (ciLoad_phase s)]
  simp [hdin, hdir]

theorem ciRound_indistinguishable (hp : s.phase = .ciRound) (h : s.indistinguishable t) :
    (ciRound s).indistinguishable (ciRound t) := by
  obtain ⟨hkey, hsk, hphase, hdout, hdone, herr, hedges, hlive⟩ := h
  obtain ⟨hl, hr, hrnd, hdir⟩ := (State.sameLive_iff_of_ciRound hp).mp hlive
  have hhalves : (ciRound s).l = (ciRound t).l ∧ (ciRound s).r = (ciRound t).r := by
    simp [State.readSk, hsk, hl, hr, hrnd, hdir]
  refine ⟨hkey, hsk, ?_, hdout, hdone, herr, hedges, ?_⟩
  · simp [hphase, hrnd]
  · by_cases hlast : s.rnd = 15#4
    · exact (State.sameLive_iff_of_ciSwap (by simp [hlast])).mpr hhalves
    · rw [State.sameLive_iff_of_ciRound (by simp [hlast, hp])]
      exact ⟨hhalves.1, hhalves.2, by simp [hrnd], hdir⟩

theorem ciSwap_indistinguishable (hp : s.phase = .ciSwap) (h : s.indistinguishable t) :
    (ciSwap s).indistinguishable (ciSwap t) := by
  obtain ⟨hkey, hsk, -, hdout, hdone, herr, hedges, hlive⟩ := h
  obtain ⟨hl, hr⟩ := (State.sameLive_iff_of_ciSwap hp).mp hlive
  refine ⟨hkey, hsk, rfl, hdout, hdone, herr, hedges, ?_⟩
  rw [State.sameLive_iff_of_ciOut (ciSwap_phase s)]
  simp [hl, hr]

theorem ciOut_indistinguishable (hp : s.phase = .ciOut) (h : s.indistinguishable t) :
    (ciOut s).indistinguishable (ciOut t) := by
  obtain ⟨hkey, hsk, -, -, -, herr, hedges, hlive⟩ := h
  have hpre := (State.sameLive_iff_of_ciOut hp).mp hlive
  exact ⟨hkey, hsk, rfl, by simp [hpre], rfl, herr, hedges, State.sameLive_of_idle rfl⟩

theorem State.indistinguishable.phase_eq (h : s.indistinguishable t) : s.phase = t.phase := by
  obtain ⟨-, -, hphase, -⟩ := h
  exact hphase

theorem State.indistinguishable.edges_eq (h : s.indistinguishable t) : s.edges = t.edges := by
  obtain ⟨-, -, -, -, -, -, hedges, -⟩ := h
  exact hedges

theorem State.indistinguishable.edge_eq (h : s.indistinguishable t) : s.edge = t.edge := by
  rw [State.edge, h.edges_eq, State.edge]

theorem State.indistinguishable.ports_eq (h : s.indistinguishable t) (rst : Bool) : s.ports rst = t.ports rst := by
  obtain ⟨hkey, -, hphase, hdout, hdone, herr, -, -⟩ := h
  simp [State.ports, State.cmdReady, hkey, hphase, hdout, hdone, herr]

theorem microStep_indistinguishable (h : s.indistinguishable t) :
    (microStep s).indistinguishable (microStep t) := by
  have hphase := h.phase_eq.symm
  cases hp : s.phase with
  | idle => rwa [microStep_idle hp, microStep_idle (hphase.trans hp)]
  | ksLoad =>
    rw [microStep_of_ksLoad hp, microStep_of_ksLoad (hphase.trans hp)]
    exact ksLoad_indistinguishable h
  | ksRound =>
    rw [microStep_of_ksRound hp, microStep_of_ksRound (hphase.trans hp)]
    exact ksRound_indistinguishable hp h
  | ciLoad =>
    rw [microStep_of_ciLoad hp, microStep_of_ciLoad (hphase.trans hp)]
    exact ciLoad_indistinguishable hp h
  | ciRound =>
    rw [microStep_of_ciRound hp, microStep_of_ciRound (hphase.trans hp)]
    exact ciRound_indistinguishable hp h
  | ciSwap =>
    rw [microStep_of_ciSwap hp, microStep_of_ciSwap (hphase.trans hp)]
    exact ciSwap_indistinguishable hp h
  | ciOut =>
    rw [microStep_of_ciOut hp, microStep_of_ciOut (hphase.trans hp)]
    exact ciOut_indistinguishable hp h

theorem runMicroSteps_indistinguishable (n : Nat) (h : s.indistinguishable t) :
    (runMicroSteps n s).indistinguishable (runMicroSteps n t) := by
  induction n generalizing s t with
  | zero => exact h
  | succ n ih => exact ih (microStep_indistinguishable h)

theorem consumeEdge_indistinguishable (h : s.indistinguishable t) :
    s.consumeEdge.indistinguishable t.consumeEdge := by
  obtain ⟨hkey, hsk, hphase, hdout, hdone, herr, hedges, hlive⟩ := h
  exact ⟨hkey, hsk, hphase, hdout, hdone, herr, congrArg List.tail hedges, hlive⟩

/-- A reset leaves its unspecified registers to an IDLE block, which reads none of them (10_state.md R52). -/
theorem resetEdge_indistinguishable (h : s.indistinguishable t) : s.resetEdge.indistinguishable t.resetEdge :=
  ⟨rfl, rfl, rfl, rfl, rfl, rfl, h.edges_eq, State.sameLive_of_idle rfl⟩

theorem acceptCipher_indistinguishable (dir : BitVec 1) (data : Block) (h : s.indistinguishable t) :
    (s.acceptCipher dir data).indistinguishable (t.acceptCipher dir data) := by
  obtain ⟨hkey, hsk, -, hdout, -, -, hedges, -⟩ := h
  exact ⟨hkey, hsk, rfl, hdout, rfl, rfl, hedges, (State.sameLive_iff_of_ciLoad rfl).mpr ⟨rfl, rfl⟩⟩

theorem raiseIllegalCommand_indistinguishable (op : Opcode) (hidle : s.phase = .idle) (h : s.indistinguishable t) :
    (s.clearStatus.raiseIllegalCommand op).indistinguishable (t.clearStatus.raiseIllegalCommand op) := by
  obtain ⟨hkey, hsk, hphase, hdout, -, -, hedges, -⟩ := h
  exact ⟨hkey, hsk, hphase, hdout, rfl, rfl, hedges, State.sameLive_of_idle hidle⟩

theorem exec_indistinguishable (i : Instr) (hidle : s.phase = .idle) (h : s.indistinguishable t) :
    ∃ s' t', exec i s = .next s' ∧ exec i t = .next t' ∧ s'.indistinguishable t' := by
  cases i with
  | setkey data =>
    obtain ⟨-, hsk, -, hdout, -, -, hedges, -⟩ := h
    exact ⟨_, _, rfl, rfl, rfl, hsk, rfl, hdout, rfl, rfl, hedges, State.sameLive_of_ksLoad rfl⟩
  | encrypt data => exact ⟨_, _, rfl, rfl, acceptCipher_indistinguishable 0#1 data h⟩
  | decrypt data => exact ⟨_, _, rfl, rfl, acceptCipher_indistinguishable 1#1 data h⟩
  | illegalZero data => exact ⟨_, _, rfl, rfl, raiseIllegalCommand_indistinguishable 0x0#4 hidle h⟩
  | illegalLow op data => exact ⟨_, _, rfl, rfl, raiseIllegalCommand_indistinguishable op hidle h⟩
  | illegalHigh op data => exact ⟨_, _, rfl, rfl, raiseIllegalCommand_indistinguishable op hidle h⟩

/-- Both states take the same branch of the step, for they have the same edge and the same PHASE. -/
theorem step_indistinguishable (h : s.indistinguishable t) :
    ∃ s' t', step s = .next s' ∧ step t = .next t' ∧ s'.indistinguishable t' := by
  have hconsumed := consumeEdge_indistinguishable h
  rw [step_eq s, step_eq t, ← h.edge_eq, ← h.phase_eq]
  split_ifs with hrst hidle
  · exact ⟨_, _, rfl, rfl, resetEdge_indistinguishable hconsumed⟩
  · unfold idleEdge
    split_ifs
    · exact exec_indistinguishable _ hidle hconsumed
    · exact ⟨_, _, rfl, rfl, hconsumed⟩
  · exact ⟨_, _, rfl, rfl, runMicroSteps_indistinguishable _ hconsumed⟩

end

/-! ### The obligations of 10_state.md -/

/-- Settles O48: every action of the step keeps the invariant; KS_ROUND extends it by the subkey at RND. -/
theorem stepKeepsSubkeysFit : Obligations.StepKeepsSubkeysFit :=
  fun _ _ hs h => step_keeps_subkeysFit hs h

/-- Settles O57: by cases on PHASE, every register a micro-step reads is one the two states share,
so their steps agree again. -/
theorem hiddenRegistersNeverReachPorts : Obligations.HiddenRegistersNeverReachPorts :=
  fun _ _ h => ⟨h.ports_eq, step_indistinguishable h⟩

/-- Settles O50: acceptance clears both flags or sets ERR alone, and DONE is set only by a micro-step that ends a
command, with ERR clear. -/
theorem stepKeepsStatusFits : Obligations.StepKeepsStatusFits :=
  fun _ _ hs h => step_keeps State.resetWith_statusFits (fun _ hs => hs) exec_keeps_statusFits
    microStep_keeps_statusFits hs h

/-- Settles O51, by O48's invariant along the run from reset. -/
theorem everyRunKeepsSubkeysOfKeyAtIdle : Obligations.EveryRunKeepsSubkeysOfKeyAtIdle := by
  intro es n t hrun hidle i
  have hreset : (State.reset.drivenBy es).subkeysFit :=
    (State.drivenBy_subkeysFit es).mpr (State.resetWith_subkeysFit 0 [])
  have hfit : t.subkeysFit := runSteps_keeps (fun _ _ hs h => step_keeps_subkeysFit hs h) n hreset hrun
  simp only [(State.subkeysFit_iff_of_idle hidle).mp hfit]

/-- Settles O54: of the actions of an edge only reset and the acceptance of a decoded SETKEY write KEY. -/
theorem onlySetkeyAndResetWriteKey : Obligations.OnlySetkeyAndResetWriteKey := by
  intro s t h hne
  obtain ⟨hrst, rfl⟩ | ⟨_, _, _, rfl⟩ | ⟨hrst, hidle, hvalid, hexec⟩ | ⟨_, _, rfl⟩ := step_cases h
  · exact .inl ⟨hrst, rfl⟩
  · exact absurd rfl hne
  · obtain hset | hkey := exec_key hexec
    · obtain ⟨hop, hdata⟩ := Edge.decode_word_eq_setkey_iff.mp hset
      exact .inr ⟨hrst, hidle, hvalid, hop, hdata.symm⟩
    · exact absurd hkey hne
  · exact absurd (runMicroSteps_key _ _) hne

/-- Settles O55: among the micro-steps only KS_ROUND writes SK, and of it the entry at RND. -/
theorem onlyKsRoundAndResetWriteSubkeys : Obligations.OnlyKsRoundAndResetWriteSubkeys := by
  intro s t i hone h hne
  obtain ⟨hrst, _⟩ | ⟨_, _, _, rfl⟩ | ⟨_, _, _, hexec⟩ | ⟨_, _, rfl⟩ := step_cases h
  · exact .inl hrst
  · exact absurd rfl hne
  · exact absurd (by simp [exec_sk hexec]) hne
  · rw [hone, runMicroSteps_one] at hne
    by_cases hround : s.phase = .ksRound
    · refine .inr ⟨hround, Decidable.byContradiction fun hrnd => hne ?_⟩
      simp only [microStep_of_ksRound (s := s.consumeEdge) hround, ksRound_sk]
      exact skWith_get_of_ne s.consumeEdge _ hrnd
    · exact absurd (by simp [microStep_sk_of_ne_ksRound (s := s.consumeEdge) hround]) hne

/-- Settles O56: among the micro-steps only CI_OUT writes DOUT. -/
theorem onlyCiOutAndResetWriteDout : Obligations.OnlyCiOutAndResetWriteDout := by
  intro s t hone h hne
  obtain ⟨hrst, rfl⟩ | ⟨_, _, _, rfl⟩ | ⟨_, _, _, hexec⟩ | ⟨hrst, _, rfl⟩ := step_cases h
  · exact .inl ⟨hrst, rfl⟩
  · exact absurd rfl hne
  · exact absurd (exec_dout hexec) hne
  · rw [hone, runMicroSteps_one] at hne ⊢
    by_cases hout : s.phase = .ciOut
    · refine .inr ⟨hrst, hout, ?_⟩
      rw [microStep_of_ciOut (s := s.consumeEdge) hout, ciOut_dout, State.consumeEdge_pre]
    · exact absurd (microStep_dout_of_ne_ciOut (s := s.consumeEdge) hout) hne

/-- Settles O7: every opcode the map sends to an illegal row lies in that row's range. -/
theorem stepRunsDecodedCommand : Obligations.StepRunsDecodedCommand :=
  fun s hrst hidle hvalid => ⟨decode_wellFormed s.edge.word, step_of_accept hrst hidle hvalid⟩

/-- Settles O9: the rule of each branch of the step, and at a busy block the micro-step of each phase. -/
theorem edgeTakesOneActionInOrder : Obligations.EdgeTakesOneActionInOrder := by
  intro s hone
  refine ⟨step_of_rst, fun hrst => ⟨step_of_accept hrst, step_of_idle_quiet hrst, ?_⟩⟩
  have hbusy {p : Phase} (hp : s.phase = p) (hne : p ≠ .idle) : step s = .next (microStep s.consumeEdge) :=
    step_of_busy_reference hrst (hp ▸ hne) hone
  refine ⟨fun hp => ?_, fun hp => ?_, fun hp => ?_, fun hp => ?_, fun hp => ?_, fun hp => ?_⟩
  · rw [hbusy hp nofun, microStep_of_ksLoad (s := s.consumeEdge) hp]
  · rw [hbusy hp nofun, microStep_of_ksRound (s := s.consumeEdge) hp]
  · rw [hbusy hp nofun, microStep_of_ciLoad (s := s.consumeEdge) hp]
  · rw [hbusy hp nofun, microStep_of_ciRound (s := s.consumeEdge) hp]
  · rw [hbusy hp nofun, microStep_of_ciSwap (s := s.consumeEdge) hp]
  · rw [hbusy hp nofun, microStep_of_ciOut (s := s.consumeEdge) hp]

/-- Settles O10: a busy block takes of an edge without reset its micro-steps alone. -/
theorem busyBlockIgnoresCommandPorts : Obligations.BusyBlockIgnoresCommandPorts := by
  intro s e es valid op data hbusy hrst
  rw [step_of_no_acceptance s e es hrst (.inl hbusy),
    step_of_no_acceptance s { e with cmdValid := valid, cmdOp := op, cmdData := data } es hrst (.inl hbusy)]

/-- Settles O11, by the rule of the step's IDLE branch with no command presented. -/
theorem idleBlockKeepsItsState : Obligations.IdleBlockKeepsItsState :=
  fun _ hidle hrst hvalid => step_of_idle_quiet hrst hidle hvalid

/-- Settles O12: reset, a kept IDLE state and micro-steps answer a state, and so does every arm of `exec`. -/
theorem everyStepHasNextState : Obligations.EveryStepHasNextState := step_hasNext

/-- Settles O14, by the fields of the reset state. -/
theorem resetStateHasStatedValues : Obligations.ResetStateHasStatedValues := by
  unfold Obligations.ResetStateHasStatedValues State.reset
  simp

/-- Settles O52: the reset state is IDLE, with the schedule of its key and both flags clear. -/
theorem resetStateMeetsInvariants : Obligations.ResetStateMeetsInvariants :=
  ⟨State.resetWith_subkeysFit 0 [], State.cipherOnTrack_of_idle rfl, State.resetWith_statusFits 0 []⟩

/-- Settles O58: only `cmd_ready` depends on `rst`. -/
theorem portsShowState : Obligations.PortsShowState := by
  intro s rst
  have hready : s.cmdReady rst = true ↔ s.phase = .idle ∧ rst = false := by
    simp [State.cmdReady]
  exact ⟨hready, rfl, rfl, rfl, rfl⟩

end Sys2Proof.Machine
end

section
/-! PROOFS. The views of a 64-bit value and the order of commands (20_memory.md): the bytes of a block, the parity bits
of a key, and a history of commands that leaves what each command applied whole leaves. -/

namespace Sys2Proof.Machine

/-! ### The bytes of a block (R63) -/

theorem blockByte_getLsbD (v : Block) (k b : Fin 8) :
    (blockByte v k).getLsbD b.val = v.getLsbD (56 - 8 * k.val + b.val) := by
  simp [blockByte]

/-- Byte k of eight bytes side by side: the bytes after it are skipped, and it is the last of the rest. -/
theorem blockByte_blockOfBytes (bs : Vector (BitVec 8) 8) (k : Fin 8) : blockByte (blockOfBytes bs) k = bs[k.val] := by
  change BitVec.extractLsb' (n := 8 + 8 + 8 + 8 + 8 + 8 + 8 + 8) _ _ (_ ++ _) = _
  fin_cases k <;> simp (disch := decide) only [BitVec.extractLsb'_append_eq_of_le]
  · exact BitVec.extractLsb'_eq_self
  all_goals exact BitVec.extractLsb'_append_eq_right

/-! ### The parity bits of a key (R64) -/

/-- A permutation reads the bits its table names and no other. -/
theorem permute_congr {n m : Nat} {T : PermTable n m} {v v' : BitVec n}
    (h : ∀ p ∈ T.entries, desBit v p = desBit v' p) : permute T v = permute T v' := by
  apply BitVec.eq_of_getMsbD_eq
  intro i hi
  have hentry := List.getElem?_eq_getElem (T.length_eq.symm ▸ hi : i < T.entries.length)
  rw [permute_getMsbD T v hentry, permute_getMsbD T v' hentry]
  exact h _ (List.getElem_mem _)

theorem sameEffectiveKey.getLsbD_eq {k k' : Block} (h : sameEffectiveKey k k') {i : Nat}
    (hi : parityMask.getLsbD i = false) (hlt : i < 64) : k.getLsbD i = k'.getLsbD i := by
  have hbit : (k &&& ~~~parityMask).getLsbD i = (k' &&& ~~~parityMask).getLsbD i := congrArg (·.getLsbD i) h
  simpa only [BitVec.getLsbD_and, BitVec.getLsbD_not, hi, hlt, decide_true, Bool.not_false, Bool.and_true] using hbit

/-- PC1 takes no parity bit (41_key_schedule.md R136). -/
theorem pc1Entries_name_no_parity_bit : ∀ p ∈ pc1Entries, parityMask.getLsbD (64 - p) = false ∧ 64 - p < 64 := by
  decide

theorem permute_pc1_eq_of_sameEffectiveKey {k k' : Block} (h : sameEffectiveKey k k') :
    permute pc1Table k = permute pc1Table k' :=
  permute_congr fun p hp =>
    let ⟨hparity, hlt⟩ := pc1Entries_name_no_parity_bit p hp
    h.getLsbD_eq hparity hlt

/-- The key schedule reads the key through PC1 alone (41_key_schedule.md R132, R134). -/
theorem ksHalves_congr {k k' : Block} (h : permute pc1Table k = permute pc1Table k') (i : Nat) :
    ksHalves k i = ksHalves k' i := by
  induction i with
  | zero => rw [ksHalves, h, ksHalves]
  | succ i ih => rw [ksHalves, ih, ksHalves]

/-! ### Sixteen rotations return the halves (41_key_schedule.md R134) -/

theorem rotl28_eq_rotateLeft (x : KeyHalf) {s : Nat} (h : s < 28) : rotl28 x s = x.rotateLeft s := by
  rw [rotl28, BitVec.rotateLeft_def, Nat.mod_eq_of_lt h]

theorem rotateLeft_rotateLeft {w : Nat} (x : BitVec w) (a b : Nat) :
    (x.rotateLeft a).rotateLeft b = x.rotateLeft (a + b) := by
  apply BitVec.eq_of_getMsbD_eq
  intro i hi
  have hmod : (b + i) % w < w := Nat.mod_lt _ (by omega)
  simp [BitVec.getMsbD_rotateLeft, hi, hmod, Nat.add_assoc]

theorem shifts_lt : ∀ i : Fin 16, shifts[i.val] < 28 := by decide

theorem rotateLeft_eq_self_of_mod_eq_zero {w : Nat} (x : BitVec w) {a : Nat} (h : a % w = 0) : x.rotateLeft a = x := by
  apply BitVec.eq_of_getMsbD_eq
  intro i hi
  have hturn : (a + i) % w = i := by rw [Nat.add_mod, h, Nat.zero_add, Nat.mod_mod, Nat.mod_eq_of_lt hi]
  simp [BitVec.getMsbD_rotateLeft, hi, hturn]

/-- How far the halves have turned before round i (41_key_schedule.md R131, R134). -/
def shiftTotal (i : Nat) : Nat := (shifts.toList.take i).sum

theorem shiftTotal_succ {i : Nat} (h : i < 16) : shiftTotal (i + 1) = shiftTotal i + shifts[i] := by
  simp [shiftTotal, List.sum_take_succ, h]

/-- The rotations accumulate: before round i each half is the first one turned by the sum of the shifts so far. -/
theorem ksHalves_eq_rotateLeft (k : Block) {i : Nat} (h : i ≤ 16) :
    ksHalves k i =
      ((ksHalves k 0).1.rotateLeft (shiftTotal i), (ksHalves k 0).2.rotateLeft (shiftTotal i)) := by
  induction i with
  | zero => simp [shiftTotal, rotateLeft_eq_self_of_mod_eq_zero]
  | succ i ih =>
    have hshift : shifts[i] < 28 := shifts_lt ⟨i, h⟩
    rw [ksHalves_succ k h, ih (by omega), rotl28_eq_rotateLeft _ hshift, rotl28_eq_rotateLeft _ hshift,
      rotateLeft_rotateLeft, rotateLeft_rotateLeft, shiftTotal_succ h]

/-- The sixteen shifts make one whole turn of 28. -/
theorem ksHalves_sixteen (k : Block) : ksHalves k 16 = ksHalves k 0 := by
  have hturn : shiftTotal 16 = 28 := by decide
  rw [ksHalves_eq_rotateLeft k (le_refl 16), hturn]
  simp [rotateLeft_eq_self_of_mod_eq_zero]

/-! ### A SETKEY is its transaction (41_key_schedule.md R141)

`afterSetkey` overwrites every register the micro-steps of a SETKEY write, so that no micro-step but the last, which
reaches it, changes the state it names. -/

/-- The last KS_ROUND completes the schedule and turns the halves back. -/
theorem ksRound_last {s : State} (hfit : s.subkeysFit) (hp : s.phase = .ksRound) (hrnd : s.rnd = 15#4)
    (herr : s.err = false) : ksRound s = s.afterSetkey s.key := by
  have hidle : (ksRound s).phase = .idle := by simp [hrnd]
  have hsk : (ksRound s).sk = keySchedule s.key :=
    (State.subkeysFit_iff_of_idle hidle).mp (ksRound_subkeysFit hp hfit)
  obtain ⟨hcd, -⟩ := (State.subkeysFit_iff_of_ksRound hp).mp hfit
  have hhalves : ((ksRound s).c, (ksRound s).d) = ksHalves s.key 0 := by
    rw [ksRound_halves hcd, hrnd]
    exact ksHalves_sixteen s.key
  rw [State.afterSetkey, ← hsk, ← hhalves]
  simp [ksRound, hrnd, herr, State.doneAfterKsRound]

theorem runMicroSteps_ksRound (n : Nat) {s : State} (hfit : s.subkeysFit) (hp : s.phase = .ksRound)
    (hrnd : s.rnd.toNat + n = 15) (herr : s.err = false) : runMicroSteps (n + 1) s = s.afterSetkey s.key := by
  induction n generalizing s with
  | zero =>
    rw [runMicroSteps_one, microStep_of_ksRound hp]
    exact ksRound_last hfit hp (BitVec.eq_of_toNat_eq hrnd) herr
  | succ n ih =>
    have hnot : s.rnd ≠ 15#4 := (round_ne_last_iff s.rnd).mpr (by omega)
    have hnext : (ksRound s).rnd.toNat + n = 15 := by
      rw [ksRound_rnd, if_neg hnot, round_succ_toNat _ hnot]
      omega
    rw [runMicroSteps, microStep_of_ksRound hp]
    exact ih (ksRound_subkeysFit hp hfit) (by simp [hnot, hp]) hnext herr

theorem runMicroSteps_ksLoad {s : State} (hp : s.phase = .ksLoad) (herr : s.err = false) :
    runMicroSteps 17 s = s.afterSetkey s.key := by
  rw [runMicroSteps, microStep_of_ksLoad hp]
  exact runMicroSteps_ksRound 15 (ksLoad_subkeysFit s) rfl rfl herr

/-! ### A cipher command is its transaction (43_block_cipher.md R200, R201)

`afterCipher` too overwrites what the micro-steps of its command write. -/

/-- CI_ROUND takes the halves of the cipher from round RND to the next (43_block_cipher.md R193, R194). -/
theorem ciRound_halves {s : State} (h : (s.l, s.r) = cipherHalves s.din s.sk s.dir s.rnd.toNat) :
    ((ciRound s).l, (ciRound s).r) = cipherHalves s.din s.sk s.dir (s.rnd.toNat + 1) := by
  rw [cipherHalves, ← h, BitVec.ofNat_toNat, BitVec.setWidth_eq]
  rfl

/-- CI_SWAP and CI_OUT make the result of the halves after the sixteenth round. -/
theorem runMicroSteps_ciSwap {s : State} (hp : s.phase = .ciSwap) (hrnd : s.rnd = 15#4)
    (h : (s.l, s.r) = cipherHalves s.din s.sk s.dir 16) (herr : s.err = false) :
    runMicroSteps 2 s = s.afterCipher s.dir s.din := by
  rw [runMicroSteps, microStep_of_ciSwap hp, runMicroSteps_one, microStep_of_ciOut (ciSwap_phase s),
    State.afterCipher, cipher, ← h, ← hrnd, ← herr]
  rfl

theorem runMicroSteps_ciRound (n : Nat) {s : State} (hp : s.phase = .ciRound)
    (h : (s.l, s.r) = cipherHalves s.din s.sk s.dir s.rnd.toNat) (hrnd : s.rnd.toNat + n = 15)
    (herr : s.err = false) : runMicroSteps (n + 1 + 2) s = s.afterCipher s.dir s.din := by
  induction n generalizing s with
  | zero =>
    have hlast : s.rnd = 15#4 := BitVec.eq_of_toNat_eq hrnd
    have hhalves := ciRound_halves h
    rw [hlast] at hhalves
    rw [runMicroSteps_add, runMicroSteps_one, microStep_of_ciRound hp]
    exact runMicroSteps_ciSwap (by simp [hlast]) (by simp [hlast]) hhalves herr
  | succ n ih =>
    have hnot : s.rnd ≠ 15#4 := (round_ne_last_iff s.rnd).mpr (by omega)
    have hnext : (ciRound s).rnd.toNat = s.rnd.toNat + 1 := by
      rw [ciRound_rnd, if_neg hnot, round_succ_toNat _ hnot]
    rw [runMicroSteps, microStep_of_ciRound hp]
    refine ih (by simp [hnot, hp]) ?_ (by omega) herr
    rw [hnext]
    exact ciRound_halves h

theorem runMicroSteps_ciLoad {s : State} (hp : s.phase = .ciLoad) (herr : s.err = false) :
    runMicroSteps 19 s = s.afterCipher s.dir s.din := by
  rw [runMicroSteps, microStep_of_ciLoad hp]
  exact runMicroSteps_ciRound 15 rfl rfl rfl herr

/-! ### A command is its transaction (43_block_cipher.md R203) -/

/-- The micro-steps after the acceptance of a command make of it the command applied whole. -/
theorem exec_runMicroSteps {i : Instr} {s t : State} (h : exec i s = .next t) :
    runMicroSteps (commandMicroSteps i) t = s.transact i := by
  obtain ⟨data, rfl, rfl⟩ | ⟨data, dir, ⟨rfl, rfl⟩ | ⟨rfl, rfl⟩, rfl⟩ |
    ⟨op, ⟨data, rfl | rfl | rfl⟩, rfl⟩ := exec_cases h
  · exact runMicroSteps_ksLoad rfl rfl
  · exact runMicroSteps_ciLoad rfl rfl
  · exact runMicroSteps_ciLoad rfl rfl
  · rfl
  · rfl
  · rfl

/-- Micro-steps beyond those a command takes find the block IDLE. -/
theorem exec_runMicroSteps_of_le {i : Instr} {s t : State} (hidle : s.phase = .idle) (h : exec i s = .next t) {n : Nat}
    (hn : commandMicroSteps i ≤ n) : runMicroSteps n t = s.transact i := by
  rw [← Nat.add_sub_cancel' hn, runMicroSteps_add, exec_runMicroSteps h,
    runMicroSteps_idle _ (transact_phase i hidle)]

/-! ### Histories of commands (R70) -/

theorem opcode_fields_of_low : ∀ op : Opcode, op.extractLsb' 2 2 = 1#2 →
    op ≠ 0x1#4 ∧ op ≠ 0x2#4 ∧ op ≠ 0x3#4 ∧ op ≠ 0x0#4 ∧ op.extractLsb' 3 1 = 0#1 := by decide

theorem opcode_fields_of_high : ∀ op : Opcode, op.extractLsb' 3 1 = 1#1 →
    op ≠ 0x1#4 ∧ op ≠ 0x2#4 ∧ op ≠ 0x3#4 ∧ op ≠ 0x0#4 ∧ op.extractLsb' 3 1 ≠ 0#1 := by decide

/-- The decoder reads a well-formed instruction back from its fields (30_encoding.md R83, R84). -/
theorem decodeFields_op_data {i : Instr} (h : i.wellFormed = true) : decodeFields i.op i.data = i := by
  cases i with
  | setkey data | encrypt data | decrypt data | illegalZero data => rfl
  | illegalLow op data =>
    obtain ⟨h1, h2, h3, h0, hlow⟩ := opcode_fields_of_low op (by simpa [Instr.wellFormed] using h)
    simp [decodeFields, Instr.op, Instr.data, h1, h2, h3, h0, hlow]
  | illegalHigh op data =>
    obtain ⟨h1, h2, h3, h0, hhigh⟩ := opcode_fields_of_high op (by simpa [Instr.wellFormed] using h)
    simp [decodeFields, Instr.op, Instr.data, h1, h2, h3, h0, hhigh]

/-- The coming edges are no business of an acceptance. -/
theorem exec_drivenBy {i : Instr} {s t : State} (h : exec i s = .next t) (es : List Edge) :
    exec i (s.drivenBy es) = .next (t.drivenBy es) := by
  obtain ⟨data, rfl, rfl⟩ | ⟨data, dir, ⟨rfl, rfl⟩ | ⟨rfl, rfl⟩, rfl⟩ |
    ⟨op, ⟨data, rfl | rfl | rfl⟩, rfl⟩ := exec_cases h <;> rfl

/-- The edge of a command is its acceptance by an IDLE block (30_encoding.md R81). -/
theorem step_of_command {s : State} (hidle : s.phase = .idle) {i : Instr} (hwf : i.wellFormed = true)
    (es : List Edge) : step (s.drivenBy (Edge.command i.op i.data :: es)) = exec i (s.drivenBy es) := by
  have hdecode : decode (Edge.command i.op i.data).word = i := by
    rw [Edge.word_eq, decode_commandWord]
    exact decodeFields_op_data hwf
  have haccept := step_of_accept (s := s.drivenBy (Edge.command i.op i.data :: es)) rfl hidle rfl
  rwa [State.drivenBy_edge_cons, State.drivenBy_consumeEdge_cons, hdecode] at haccept

/-- Quiet edges make their micro-steps, whatever edges come after them. -/
theorem runSteps_quiet_append (n : Nat) (rest : List Edge) {es : List Edge} (h : quietEdges es) (s : State) :
    runSteps (es.length + n) (s.drivenBy (es ++ rest)) =
      runSteps n ((runMicroSteps (microTotal es) s).drivenBy rest) := by
  induction es generalizing s with
  | nil => simp [microTotal, runMicroSteps]
  | cons e es ih =>
    obtain ⟨⟨hrst, hvalid⟩, hes⟩ := List.forall_mem_cons.mp h
    rw [List.length_cons, Nat.add_right_comm, List.cons_append,
      runSteps_next _ (step_of_no_acceptance s e _ hrst (.inr hvalid)), ih hes, ← runMicroSteps_add]
    rfl

/-- A command and quiet edges enough to finish it leave the command applied whole, whatever edges come after them. -/
theorem runSteps_command_append {s : State} (hidle : s.phase = .idle) {i : Instr} (hwf : i.wellFormed = true)
    {es : List Edge} (hquiet : quietEdges es) (hmicro : commandMicroSteps i ≤ microTotal es) (n : Nat)
    (rest : List Edge) :
    runSteps (es.length + n + 1) (s.drivenBy (Edge.command i.op i.data :: (es ++ rest))) =
      runSteps n ((s.transact i).drivenBy rest) := by
  obtain ⟨t, ht⟩ := exec_hasNext i s
  rw [runSteps_next _ ((step_of_command hidle hwf _).trans (exec_drivenBy ht _)),
    runSteps_quiet_append n rest hquiet, exec_runMicroSteps_of_le hidle ht hmicro]

theorem commandMicroSteps_le (i : Instr) : commandMicroSteps i ≤ 19 := by
  cases i <;> simp [commandMicroSteps]

theorem historyEdges_cons (i : Instr) (es : List Edge) (history : List (Instr × List Edge)) :
    historyEdges ((i, es) :: history) = Edge.command i.op i.data :: (es ++ historyEdges history) := rfl

/-! ### The obligations of 20_memory.md -/

/-- Settles O29, by induction on the history: each command and its edges leave the IDLE state of the command applied
whole, from which the rest of the history starts. -/
theorem transactionModelAgreesAtIdle : Obligations.TransactionModelAgreesAtIdle := by
  intro s history hidle hhistory
  induction history generalizing s with
  | nil => rfl
  | cons c history ih =>
    obtain ⟨i, es⟩ := c
    obtain ⟨⟨hwf, hquiet, hmicro⟩, hrest⟩ := List.forall_mem_cons.mp hhistory
    rw [historyEdges_cons, List.length_cons, List.length_append,
      runSteps_command_append hidle hwf hquiet ((commandMicroSteps_le i).trans hmicro),
      ih (s.transact i) (transact_phase i hidle) hrest]
    rfl

/-- Settles O34: the bytes of a block as one value each, and then bit by bit. -/
theorem blockBytesAreBigEndian : Obligations.BlockBytesAreBigEndian := by
  intro bs k
  refine ⟨blockByte_blockOfBytes bs k, fun b => ?_⟩
  rw [← blockByte_getLsbD, blockByte_blockOfBytes]

/-- Settles O40: PC1 takes no parity bit, and the schedule reads the key through PC1 alone. -/
theorem parityBitsDoNotReachSubkeys : Obligations.ParityBitsDoNotReachSubkeys := by
  intro k k' h
  have hhalves := ksHalves_congr (permute_pc1_eq_of_sameEffectiveKey h)
  refine keySchedule_eq_of_subkeys fun i => ?_
  rw [keySchedule_get, subkey, subkey, hhalves]

end Sys2Proof.Machine
end

section
/-! PROOFS. Command words (30_encoding.md): decoding and encoding invert each other, the opcode table gives every word
one row, the text of a word names it, what a command does at its acceptance, and how a script presents one. -/

namespace Sys2Proof.Machine

/-! ### The opcode map (R80 to R85) -/

theorem decode_encode {i : Instr} (h : i.wellFormed = true) : decode (encode i) = i :=
  (decode_commandWord i.op i.data).trans (decodeFields_op_data h)

theorem decodeFields_op (op : Opcode) (data : Block) : (decodeFields op data).op = op := by
  unfold decodeFields
  split_ifs with h1 h2 h3 h0
  · exact h1.symm
  · exact h2.symm
  · exact h3.symm
  · exact h0.symm
  · rfl
  · rfl

theorem decodeFields_data (op : Opcode) (data : Block) : (decodeFields op data).data = data := by
  unfold decodeFields
  split_ifs <;> rfl

theorem encode_decode (w : Command) : encode (decode w) = w := by
  rw [encode, decode, decodeFields_op, decodeFields_data, commandWord_fields]

theorem opcode_bits_of_four_to_seven : ∀ op : Opcode, 4 ≤ op.toNat ∧ op.toNat ≤ 7 → op.extractLsb' 2 2 = 1#2 := by
  decide

theorem opcode_bit_of_eight_up : ∀ op : Opcode, 8 ≤ op.toNat → op.extractLsb' 3 1 = 1#1 := by decide

/-- The two illegal rows that name a range are well-formed there, so the decoder gives them back. -/
theorem decodeFields_of_low {op : Opcode} (h : 4 ≤ op.toNat ∧ op.toNat ≤ 7) (data : Block) :
    decodeFields op data = .illegalLow op data :=
  decodeFields_op_data (i := .illegalLow op data) (by simp [Instr.wellFormed, opcode_bits_of_four_to_seven op h])

theorem decodeFields_of_high {op : Opcode} (h : 8 ≤ op.toNat) (data : Block) :
    decodeFields op data = .illegalHigh op data :=
  decodeFields_op_data (i := .illegalHigh op data) (by simp [Instr.wellFormed, opcode_bit_of_eight_up op h])

/-! ### The opcode table (R83) -/

theorem commandWord_and (op op' : Opcode) (data data' : Block) :
    commandWord op data &&& commandWord op' data' = commandWord (op &&& op') (data &&& data') :=
  BitVec.and_append

theorem commandWord_zero_inj {op op' : Opcode} : commandWord op 0#64 = commandWord op' 0#64 ↔ op = op' :=
  ⟨fun h => by rw [← opField_commandWord op 0#64, h, opField_commandWord], fun h => by rw [h]⟩

/-- No row of the table looks at the data field (R85). -/
theorem opcodeTable_fixes_no_data : ∀ row ∈ opcodeTable,
    row.mask = commandWord (opField row.mask) 0#64 ∧ row.pattern = commandWord (opField row.pattern) 0#64 := by
  decide

theorem rowMatches_commandWord {row : OpcodeRow} (h : row ∈ opcodeTable) (op : Opcode) (data : Block) :
    rowMatches row (commandWord op data) = (op &&& opField row.mask == opField row.pattern) := by
  obtain ⟨hmask, hpattern⟩ := opcodeTable_fixes_no_data row h
  rw [rowMatches, hmask, hpattern, commandWord_and, BitVec.and_zero, opField_commandWord, opField_commandWord,
    Bool.eq_iff_iff, beq_iff_eq, beq_iff_eq, commandWord_zero_inj]

theorem decodeFields_row (op : Opcode) (data data' : Block) :
    (decodeFields op data).row = (decodeFields op data').row := by
  unfold decodeFields
  split_ifs <;> rfl

/-- The rows' opcode bits part the sixteen opcodes as the opcode map does. -/
theorem opcodeTable_rows_of_op : ∀ op : Opcode,
    opcodeTable.filter (fun row => op &&& opField row.mask == opField row.pattern) = [(decodeFields op 0#64).row] := by
  decide

theorem opcodeTable_rows_of_word (op : Opcode) (data : Block) :
    opcodeTable.filter (fun row => rowMatches row (commandWord op data)) = [(decodeFields op data).row] := by
  rw [List.filter_congr fun row h => rowMatches_commandWord h op data, opcodeTable_rows_of_op,
    decodeFields_row op 0#64 data]

/-! ### The text of a word (R87, R89) -/

theorem hexValue_hexDigit : ∀ d : BitVec 4, hexValue (hexDigit d) = some d.toNat := by decide

theorem hexNumber_nil (acc : Nat) : hexNumber acc [] = some acc := rfl

theorem hexNumber_cons (acc : Nat) (ch : Char) (cs : List Char) :
    hexNumber acc (ch :: cs) = (hexValue ch).bind fun v => hexNumber (16 * acc + v) cs := rfl

theorem hexNumber_hexDigit_cons (acc : Nat) (d : BitVec 4) (cs : List Char) :
    hexNumber acc (hexDigit d :: cs) = hexNumber (16 * acc + d.toNat) cs := by
  rw [hexNumber_cons, hexValue_hexDigit, Option.bind_some]

theorem hexLiteral_of_hexNumber {n v : Nat} {cs : List Char} (hlength : cs.length = n)
    (hnumber : hexNumber 0 cs = some v) : hexLiteral n cs = .ok v :=
  (if_pos hlength).trans (by rw [hnumber])

theorem hexLiteral_hexDigit (d : BitVec 4) : hexLiteral 1 [hexDigit d] = .ok d.toNat :=
  hexLiteral_of_hexNumber rfl (by rw [hexNumber_hexDigit_cons, hexNumber_nil, Nat.mul_zero, Nat.zero_add])

/-- Reading the last n digits of a block after the number of the digits before them gives the number of all. -/
theorem hexNumber_lastDigits (v : Block) (n : Nat) :
    hexNumber (v.toNat >>> (4 * n)) ((List.range n).reverse.map fun k => hexDigit (v.extractLsb' (4 * k) 4)) =
      some v.toNat := by
  induction n with
  | zero => rfl
  | succ n ih =>
    have hdigit : 16 * (v.toNat >>> (4 * (n + 1))) + (v.extractLsb' (4 * n) 4).toNat = v.toNat >>> (4 * n) := by
      rw [Nat.mul_succ, Nat.shiftRight_add, Nat.shiftRight_eq_div_pow _ 4, BitVec.extractLsb'_toNat]
      exact Nat.div_add_mod _ 16
    rw [List.range_succ, List.reverse_concat, List.map_cons, hexNumber_hexDigit_cons, hdigit, ih]

/-- Digit j of the text is the nibble that stands 15 - j nibbles above the last (20_memory.md R63). -/
theorem blockText_eq_lastDigits (v : Block) :
    blockText v = (List.range 16).reverse.map fun k => hexDigit (v.extractLsb' (4 * k) 4) := rfl

theorem hexNumber_blockText (v : Block) : hexNumber 0 (blockText v) = some v.toNat := by
  have hread := hexNumber_lastDigits v 16
  rwa [Nat.shiftRight_eq_zero _ _ v.isLt, ← blockText_eq_lastDigits] at hread

theorem blockText_length (v : Block) : (blockText v).length = 16 := rfl

theorem blockLiteral_of_hexLiteral {cs : List Char} {v : Nat} (h : hexLiteral 16 cs = .ok v) :
    blockLiteral cs = .ok (BitVec.ofNat 64 v) :=
  congrArg (Except.map (BitVec.ofNat 64)) h

theorem blockLiteral_blockText (v : Block) : blockLiteral (blockText v) = .ok v := by
  rw [blockLiteral_of_hexLiteral (hexLiteral_of_hexNumber (blockText_length v) (hexNumber_blockText v)),
    BitVec.ofNat_toNat, BitVec.setWidth_eq]

theorem parseWord_of_literals {o : Char} {cs : List Char} {op : Nat} {data : Block}
    (hop : hexLiteral 1 [o] = .ok op) (hdata : blockLiteral cs = .ok data) :
    parseWord (o :: '_' :: cs) = .ok (commandWord (BitVec.ofNat 4 op) data) := by
  change (do let op ← hexLiteral 1 [o]
             let data ← blockLiteral cs
             return commandWord (BitVec.ofNat 4 op) data) = _
  rw [hop, hdata]
  rfl

theorem parseWord_wordText (w : Command) : parseWord (wordText w) = .ok w := by
  have hread := parseWord_of_literals (hexLiteral_hexDigit (opField w)) (blockLiteral_blockText (dataField w))
  rwa [BitVec.ofNat_toNat, BitVec.setWidth_eq, commandWord_fields] at hread

/-! ### Illegal opcodes (R84, R86) -/

theorem exec_decodeFields_of_illegal {op : Opcode} (h1 : op ≠ 0x1#4) (h2 : op ≠ 0x2#4) (h3 : op ≠ 0x3#4)
    (data : Block) (s : State) : exec (decodeFields op data) s = .next { s with done := false, err := true } := by
  rw [decodeFields, if_neg h1, if_neg h2, if_neg h3]
  split_ifs
  · rfl
  · rfl
  · rfl

/-! ### A script presents a command (R87) -/

theorem State.cmdReady_iff (s : State) : s.cmdReady false = true ↔ s.phase = .idle :=
  (Bool.and_eq_true_iff.trans (and_iff_left rfl)).trans decide_eq_true_iff

/-- The host drives the word of its next line, and drops the line where the block is IDLE. -/
theorem hostDrive_present (s : State) (w : Command) (rest : List ScriptLine) :
    hostDrive s (.present w :: rest) =
      (Edge.command (opField w) (dataField w), if s.phase = .idle then rest else .present w :: rest) :=
  congrArg (Prod.mk _) (if_congr s.cmdReady_iff rfl rfl)

theorem ScriptRun.settled_of_present {run : ScriptRun} {w : Command} {rest : List ScriptLine}
    (h : run.lines = .present w :: rest) : run.settled = run := by
  cases run; cases h; rfl

/-- An edge of a run whose next line presents a word is a step of the block at an edge with that word on the ports,
in the run's pace; the line stays until the block is IDLE. -/
theorem scriptEdge_of_present {run : ScriptRun} {w : Command} {rest : List ScriptLine}
    (h : run.lines = .present w :: rest) :
    ∃ e : Edge, e.rst = false ∧ e.cmdValid = true ∧ e.word = w ∧ e.microSteps = run.pace.headD 1 ∧
      ∀ t : State, step (run.state.drivenBy [e]) = .next t → scriptEdge run = .next
        { state := t
          lines := if run.state.phase = .idle then rest else run.lines
          pace := run.pace.tail
          checks := run.checks } := by
  refine ⟨{ Edge.command (opField w) (dataField w) with microSteps := run.pace.headD 1 }, rfl, rfl,
    commandWord_fields w, rfl, fun t hstep => ?_⟩
  have hdrive : hostDrive run.state run.lines =
      (Edge.command (opField w) (dataField w), if run.state.phase = .idle then rest else run.lines) := by
    rw [h, hostDrive_present]
  have hdriven : step { run.state with
      edges := [{ Edge.command (opField w) (dataField w) with microSteps := run.pace.headD 1 }] } = .next t := hstep
  simp only [scriptEdge, ScriptRun.settled_of_present h, hdrive, hdriven]

/-! ### The obligations of 30_encoding.md -/

/-- Settles O1: the fields of a command word are read back, and so is the instruction from its fields. -/
theorem decodeOfEncode : Obligations.DecodeOfEncode := fun _ h => decode_encode h

/-- Settles O2: every branch of the opcode map keeps both fields of the word. -/
theorem encodeOfDecode : Obligations.EncodeOfDecode := fun w => ⟨decode_wellFormed w, encode_decode w⟩

/-- Settles O3: the map at each opcode, and at the two ranges by the instruction that is well-formed there. -/
theorem opcodeMapSelectsByOp : Obligations.OpcodeMapSelectsByOp := by
  intro op data
  rw [decode_commandWord]
  refine ⟨?_, ?_, ?_, ?_, fun h => decodeFields_of_low h data, fun h => decodeFields_of_high h data⟩
  · rintro rfl; rfl
  · rintro rfl; rfl
  · rintro rfl; rfl
  · rintro rfl; rfl

/-- Settles O4: no row looks at the data field, and the opcode bits of the rows part the opcodes as the map does. -/
theorem everyWordMatchesItsOneRow : Obligations.EveryWordMatchesItsOneRow := by
  intro w
  have hrows := opcodeTable_rows_of_word (opField w) (dataField w)
  rwa [commandWord_fields] at hrows

/-- Settles O6, digit by digit from the most significant one. -/
theorem wordTextReadsBack : Obligations.WordTextReadsBack := parseWord_wordText

/-- Settles O19: at an illegal opcode every branch left of the map raises IllegalCommand, whatever the data. -/
theorem illegalWordIgnoresData : Obligations.IllegalWordIgnoresData := by
  intro op data data' s h1 h2 h3
  simp only [decode_commandWord, exec_decodeFields_of_illegal h1 h2 h3, and_self]

/-- Settles O59: the step's busy branch keeps the line, and its accepting branch takes it. -/
theorem scriptCommandHeldUntilAccepted : Obligations.ScriptCommandHeldUntilAccepted := by
  intro run w rest hlines
  obtain ⟨e, hrst, hvalid, hword, hpace, hedge⟩ := scriptEdge_of_present hlines
  refine ⟨fun hbusy => ?_, fun hidle => ?_⟩
  · have hstep := step_of_no_acceptance run.state e [] hrst (.inl hbusy)
    rw [hpace, ← runMicroSteps_drivenBy] at hstep
    exact ⟨_, hedge _ hstep, if_neg hbusy, rfl⟩
  · obtain ⟨t, ht⟩ := exec_hasNext (decode w) (run.state.drivenBy [])
    have haccept := step_of_accept (s := run.state.drivenBy [e]) hrst hidle hvalid
    rw [State.drivenBy_edge_cons, hword, State.drivenBy_consumeEdge_cons] at haccept
    exact ⟨_, hedge t (haccept.trans ht), if_pos hidle, ht⟩

/-- Settles O5: the words are closed terms, one of each constructor, and the decoder computes on them. -/
theorem sampleWordsDecode : Obligations.SampleWordsDecode := by
  unfold Obligations.SampleWordsDecode
  decide

/-- Settles O16: the operand of SETKEY is the data field as it stands. -/
theorem setkeyAcceptance : Obligations.SetkeyAcceptance := fun _ _ => rfl

/-- Settles O17: ENCRYPT and DECRYPT share one acceptance, which differs in DIR alone. -/
theorem cipherAcceptance : Obligations.CipherAcceptance := fun _ _ => ⟨rfl, rfl⟩

/-- Settles O20, from the three things an acceptance can do. -/
theorem acceptanceFrame : Obligations.AcceptanceFrame := by
  intro i s t h
  obtain ⟨data, rfl, rfl⟩ | ⟨data, dir, hi, rfl⟩ | ⟨op, _, rfl⟩ := exec_cases h
  · exact ⟨by simp, fun hne => absurd rfl (hne data), fun _ => ⟨rfl, rfl⟩, fun hne => absurd rfl (hne data).1⟩
  · have hcipher : ¬(i ≠ .encrypt data ∧ i ≠ .decrypt data) := by tauto
    exact ⟨by simp, fun _ => rfl, fun hne => absurd (hne data) hcipher, fun hne => absurd (hne data).2 hcipher⟩
  · exact ⟨by simp, fun _ => rfl, fun _ => ⟨rfl, rfl⟩, fun _ => rfl⟩

end Sys2Proof.Machine
end

section
/-! PROOFS. The permutation engine (40_permutation_engine.md): where each output bit comes from, which lists of entries
it refuses, that IP and FP invert each other, and which positions the selecting tables take. -/

namespace Sys2Proof.Machine

/-! ### The bit each entry takes (R100) -/

/-- Entry i, counted from the first, is output bit m-1-i. -/
theorem permute_getLsbD {n m : Nat} (T : PermTable n m) (v : BitVec n) {i p : Nat} (h : T.entries[i]? = some p) :
    (permute T v).getLsbD (m - 1 - i) = v.getLsbD (n - p) := by
  have hi : i < m := T.length_eq ▸ (List.getElem?_eq_some_iff.mp h).1
  have hbit := permute_getMsbD T v h
  simpa only [BitVec.getMsbD, hi, decide_true, Bool.true_and, desBit] using hbit

/-- DES position p, counted from 1, is the bit before which p - 1 others stand (00_scope.md R13). -/
theorem desBit_eq_getMsbD {n : Nat} (v : BitVec n) {p : Nat} (h : 1 ≤ p ∧ p ≤ n) :
    desBit v p = v.getMsbD (p - 1) := by
  have hlt : p - 1 < n := by omega
  have hpos : n - 1 - (p - 1) = n - p := by omega
  simp only [desBit, BitVec.getMsbD, hlt, hpos, decide_true, Bool.true_and]

/-- Settles O35, in the numbering of the statement: bits counted from the lowest, entries from the first. -/
theorem permuteTakesTableBit : Obligations.PermuteTakesTableBit := fun _ _ T v _ _ h => permute_getLsbD T v h

/-! ### Tables with an entry out of range (R101) -/

theorem permuteChecked_of_inRange {n : Nat} {entries : List Nat} (v : BitVec n) (h : tableInRange n entries = true) :
    permuteChecked entries v = .ok (permute ⟨entries, rfl, h⟩ v) :=
  dif_pos h

theorem permuteChecked_of_not_inRange {n : Nat} {entries : List Nat} (v : BitVec n)
    (h : ¬tableInRange n entries = true) : permuteChecked entries v = .error .permuteIndexOutOfRange :=
  dif_neg h

/-- Settles O36: the engine refuses a list exactly where it is no table, and computes `permute` on the others. -/
theorem outOfRangeTableFaults : Obligations.OutOfRangeTableFaults := by
  intro n entries v
  refine ⟨fun ⟨p, hp, hout⟩ => permuteChecked_of_not_inRange v fun hall => ?_, fun hall => ?_⟩
  · rw [tableInRange_iff] at hall
    have hin := hall p hp
    omega
  · rw [← tableInRange_iff] at hall
    exact ⟨_, permuteChecked_of_inRange v hall, fun _ _ h => permute_getLsbD _ v h⟩

/-! ### Inverse tables (R106) -/

/-- The permuted value is the one that holds at each index the bit the table's entry there names. -/
theorem permute_eq_of_entries {n m : Nat} {T : PermTable n m} {v : BitVec n} {w : BitVec m}
    (h : ∀ x ∈ T.entries.zipIdx, desBit v x.1 = w.getMsbD x.2) : permute T v = w := by
  apply BitVec.eq_of_getMsbD_eq
  intro i hi
  have hentry := List.getElem?_eq_getElem (T.length_eq.symm ▸ hi : i < T.entries.length)
  rw [permute_getMsbD T v hentry]
  exact h (_, i) (List.mem_zipIdx_iff_getElem?.mpr hentry)

/-- The list `S` undoes the list `T`: where entry i of `T` is p, the entry of `S` at position p is i's own position.
Stated over the finite list of entries with their indices, so that it is decided on given tables. -/
def UndoesEntries (S T : List Nat) : Prop := ∀ x ∈ T.zipIdx, S[x.1 - 1]? = some (x.2 + 1)

theorem UndoesEntries.getElem? {S T : List Nat} (h : UndoesEntries S T) {i p : Nat} (hp : T[i]? = some p) :
    S[p - 1]? = some (i + 1) :=
  h (p, i) (List.mem_zipIdx_iff_getElem?.mpr hp)

/-- The second permutation takes entry i from where the first one moved the bit at position i + 1. -/
theorem permute_permute_of_undoes {n m : Nat} {S : PermTable n m} {T : PermTable m n}
    (h : UndoesEntries S.entries T.entries) (v : BitVec n) : permute T (permute S v) = v := by
  refine permute_eq_of_entries fun (p, i) hx => ?_
  have hp : T.entries[i]? = some p := List.mem_zipIdx_iff_getElem?.mp hx
  have hi : i < n := T.length_eq ▸ (List.getElem?_eq_some_iff.mp hp).1
  calc desBit (permute S v) p
    _ = (permute S v).getMsbD (p - 1) := desBit_eq_getMsbD _ (T.entry_inRange hp)
    _ = desBit v (i + 1) := permute_getMsbD S v (h.getElem? hp)
    _ = v.getMsbD i := desBit_eq_getMsbD v ⟨Nat.le_add_left 1 i, hi⟩

theorem ipEntries_undo_fpEntries : UndoesEntries ipEntries fpEntries := by
  unfold UndoesEntries
  decide

theorem fpEntries_undo_ipEntries : UndoesEntries fpEntries ipEntries := by
  unfold UndoesEntries
  decide

theorem permute_fp_ip (v : Block) : permute fpTable (permute ipTable v) = v :=
  permute_permute_of_undoes (S := ipTable) (T := fpTable) ipEntries_undo_fpEntries v

theorem permute_ip_fp (v : Block) : permute ipTable (permute fpTable v) = v :=
  permute_permute_of_undoes (S := fpTable) (T := ipTable) fpEntries_undo_ipEntries v

/-- The example of R106, bit by bit. -/
theorem permute_ip_example : permute ipTable 0x0123456789ABCDEF#64 = 0xCC00CCFFF0AAF0AA#64 :=
  permute_eq_of_entries (T := ipTable) (by decide)

/-- Settles O37: each table undoes the other, entry by entry; the example's second value follows from its first. -/
theorem finalInvertsInitialPermutation : Obligations.FinalInvertsInitialPermutation := by
  refine ⟨fun v => ⟨permute_fp_ip v, permute_ip_fp v⟩, fun _ _ => UndoesEntries.getElem? fpEntries_undo_ipEntries,
    permute_ip_example, ?_⟩
  rw [← permute_ip_example, permute_fp_ip]

/-! ### The positions E, PC1 and PC2 take (R108, R111, R113) -/

/-- In a rearrangement of some of the positions 1 to n, a position is counted once, or not at all if it is omitted. -/
theorem count_eq_of_perm_filter {entries : List Nat} {n : Nat} {omitted : Nat → Prop} [DecidablePred omitted]
    (h : entries.Perm ((List.range' 1 n).filter fun p => ¬omitted p)) {p : Nat} (hp : 1 ≤ p) (hn : p < n + 1) :
    entries.count p = if omitted p then 0 else 1 := by
  have hnodup : ((List.range' 1 n).filter fun p => ¬omitted p).Nodup := List.Nodup.filter _ List.nodup_range'
  rw [h.count_eq, hnodup.count]
  by_cases ho : omitted p
  · simp [ho]
  · simp [ho, List.mem_range'_1, hp, Nat.add_comm 1 n, hn]

/-- PC1 takes the positions that are no parity position, in another order (R111). -/
theorem pc1Entries_perm : pc1Entries.Perm ((List.range' 1 64).filter fun p => ¬p % 8 = 0) := by decide

/-- PC2 takes all positions but eight, in another order (R113). -/
theorem pc2Entries_perm :
    pc2Entries.Perm ((List.range' 1 56).filter fun p => ¬p ∈ [9, 18, 22, 25, 35, 38, 43, 54]) := by decide

/-- Settles O38: PC1 and PC2 rearrange the positions they do not omit; E's counts and PC2's halves are read off. -/
theorem tablesTakeStatedPositions : Obligations.TablesTakeStatedPositions := by
  refine ⟨?twice, ?once, fun p hp => ?pc1, fun p hp => ?pc2, ?fromC, ?fromD⟩
  case twice => decide
  case once => decide
  case pc1 => exact count_eq_of_perm_filter pc1Entries_perm hp p.isLt
  case pc2 => exact count_eq_of_perm_filter pc2Entries_perm hp p.isLt
  case fromC => decide
  case fromD => decide

end Sys2Proof.Machine
end

section
/-! PROOFS. The key schedule (41_key_schedule.md): what its two micro-steps write, a SETKEY as a whole and its edges in
the reference timing, and the weak keys, whose equal subkeys make encryption its own inverse. -/

namespace Sys2Proof.Machine

/-! ### The micro-steps of a SETKEY (R138, R139) -/

theorem step_of_ksLoad {s : State} (hp : s.phase = .ksLoad) (hrst : s.edge.rst = false) (hone : s.edge.microSteps = 1) :
    step s = .next (ksLoad s.consumeEdge) := by
  rw [step_of_busy_reference hrst (by simp [hp]) hone, microStep_of_ksLoad (s := s.consumeEdge) hp]

theorem step_of_ksRound {s : State} (hp : s.phase = .ksRound) (hrst : s.edge.rst = false)
    (hone : s.edge.microSteps = 1) : step s = .next (ksRound s.consumeEdge) := by
  rw [step_of_busy_reference hrst (by simp [hp]) hone, microStep_of_ksRound (s := s.consumeEdge) hp]

/-- The sixteenth KS_ROUND keeps RND and ends the command (10_state.md R39, R42). -/
theorem ksRound_of_last {s : State} (h : s.rnd = 15#4) :
    ksRound s = { s with
      c := (ksRound s).c, d := (ksRound s).d, sk := (ksRound s).sk, phase := .idle, done := true } := by
  simp [ksRound, State.doneAfterKsRound, h]

/-- The other KS_ROUNDs count on and keep PHASE and DONE. -/
theorem ksRound_of_not_last {s : State} (h : s.rnd ≠ 15#4) :
    ksRound s = { s with c := (ksRound s).c, d := (ksRound s).d, sk := (ksRound s).sk, rnd := s.rnd + 1#4 } := by
  simp [ksRound, State.doneAfterKsRound, h]

theorem round_ofNat_succ (r : Round) : BitVec.ofNat 4 (r.toNat + 1) = r + 1#4 := by
  rw [BitVec.ofNat_add, BitVec.ofNat_toNat, BitVec.setWidth_eq]

/-! ### The edges of a SETKEY in the reference timing (R140) -/

/-- In the reference timing a busy block makes one micro-step an edge, whatever commands stand on the ports
(70_reset_and_hazards.md R265, R272). -/
theorem runSteps_reference_of_busy (n : Nat) {es : List Edge} (hes : referenceEdges es) (hn : n ≤ es.length) {s : State}
    (hbusy : ∀ m < n, (runMicroSteps m s).phase ≠ .idle) :
    runSteps n (s.drivenBy es) = .next ((runMicroSteps n s).drivenBy (es.drop n)) := by
  induction n generalizing es s with
  | zero => rfl
  | succ n ih =>
    match es with
    | e :: es =>
      obtain ⟨⟨hrst, hone⟩, hes⟩ := List.forall_mem_cons.mp hes
      rw [runSteps_next n (step_of_no_acceptance s e es hrst (.inl (hbusy 0 n.succ_pos))), hone]
      exact ih hes (Nat.le_of_succ_le_succ hn) fun m hm => hbusy (m + 1) (Nat.succ_lt_succ hm)

theorem exec_setkey_phase {data : Block} {s t : State} (h : exec (.setkey data) s = .next t) : t.phase = .ksLoad := by
  injection h with h
  exact h ▸ rfl

theorem runMicroSteps_ksRound_phase (n : Nat) {s : State} (hp : s.phase = .ksRound) (hn : s.rnd.toNat + n ≤ 15) :
    (runMicroSteps n s).phase = .ksRound := by
  induction n generalizing s with
  | zero => exact hp
  | succ n ih =>
    have hnot : s.rnd ≠ 15#4 := (round_ne_last_iff s.rnd).mpr (by omega)
    have hnext : (ksRound s).rnd.toNat = s.rnd.toNat + 1 := by
      rw [ksRound_rnd, if_neg hnot, round_succ_toNat _ hnot]
    rw [runMicroSteps, microStep_of_ksRound hp]
    exact ih (by simp [hnot, hp]) (by omega)

/-- A SETKEY is not done before its seventeenth micro-step. -/
theorem runMicroSteps_ksLoad_busy {s : State} (hp : s.phase = .ksLoad) {n : Nat} (hn : n < 17) :
    (runMicroSteps n s).phase ≠ .idle := by
  cases n with
  | zero => simp [runMicroSteps, hp]
  | succ n =>
    have hround : (runMicroSteps n (ksLoad s)).phase = .ksRound :=
      runMicroSteps_ksRound_phase n (ksLoad_phase s) (by rw [ksLoad_rnd, BitVec.toNat_ofNat]; omega)
    rw [runMicroSteps, microStep_of_ksLoad hp, hround]
    exact nofun

/-! ### A cipher run under the subkeys in reverse order (43_block_cipher.md R194, R199) -/

theorem splitLR_preOutput (lr : Half × Half) : splitLR (preOutput lr) = lr.swap :=
  Prod.ext BitVec.extractLsb'_append_eq_left BitVec.extractLsb'_append_eq_right

theorem preOutput_splitLR_swap (v : Block) : preOutput (splitLR v).swap = v :=
  (BitVec.extractLsb'_append_extractLsb'_eq_extractLsb' rfl).trans BitVec.extractLsb'_eq_self

/-- A round undoes itself on swapped halves: its function is computed from the half it leaves as it is. -/
theorem cipherRound_swap_cipherRound (lr : Half × Half) (k : Subkey) :
    cipherRound (cipherRound lr k).swap k = lr.swap := by
  simp [cipherRound, Prod.swap]

/-- The subkeys of one cipher run are those of the other, last first. -/
def ReversedSubkeys (K : Subkeys) (dir : BitVec 1) (K' : Subkeys) (dir' : BitVec 1) : Prop :=
  ∀ r < 16, entry16 K' (subkeyOrder dir' (BitVec.ofNat 4 r)) = entry16 K (subkeyOrder dir (BitVec.ofNat 4 (15 - r)))

section
variable {K K' : Subkeys} {dir dir' : BitVec 1}

/-- Run on a result under the reversed subkeys, the cipher passes through the swapped halves it came from. -/
theorem cipherHalves_cipher_of_reversed (h : ReversedSubkeys K dir K' dir') (m : Block) {r : Nat} (hr : r ≤ 16) :
    cipherHalves (cipher m K dir) K' dir' r = (cipherHalves m K dir (16 - r)).swap := by
  induction r with
  | zero => rw [cipherHalves, cipher, permute_ip_fp, splitLR_preOutput]
  | succ r ih =>
    have hround : 16 - r = (15 - r) + 1 := by omega
    have hnext : 16 - (r + 1) = 15 - r := by omega
    rw [cipherHalves, ih (by omega), h r hr, hround, cipherHalves, cipherRound_swap_cipherRound, hnext]

theorem cipher_cipher_of_reversed (h : ReversedSubkeys K dir K' dir') (m : Block) :
    cipher (cipher m K dir) K' dir' = m := by
  rw [cipher, cipherHalves_cipher_of_reversed h m (le_refl 16), Nat.sub_self, cipherHalves, preOutput_splitLR_swap,
    permute_fp_ip]

end

/-- Equal subkeys are the same in either order. -/
theorem reversedSubkeys_of_constant {K : Subkeys} {sub : Subkey} (h : ∀ i : Fin 16, K[i.val] = sub) (dir : BitVec 1) :
    ReversedSubkeys K dir K dir :=
  have hentry (i : Round) : entry16 K i = sub := h ⟨i.toNat, i.isLt⟩
  fun _ _ => (hentry _).trans (hentry _).symm

/-! ### The weak keys (R142) -/

theorem rotateLeft_fill {w : Nat} (b : Bool) (s : Nat) : (BitVec.fill w b).rotateLeft s = BitVec.fill w b := by
  apply BitVec.eq_of_getMsbD_eq
  intro i hi
  have hmod : (s + i) % w < w := Nat.mod_lt _ (by omega)
  simp [BitVec.getMsbD_rotateLeft, BitVec.getMsbD_fill, hi, hmod]

/-- Both halves of the key after PC1 are of one bit each, `b` in C and `b'` in D. -/
def UniformHalves (k : Block) (b b' : Bool) : Prop := permute pc1Table k = BitVec.fill 28 b ++ BitVec.fill 28 b'

/-- PC2 takes its first 24 entries from C and the others from D (40_permutation_engine.md R113). -/
theorem subkeyOf_fill (b b' : Bool) :
    subkeyOf (BitVec.fill 28 b) (BitVec.fill 28 b') = BitVec.fill 24 b ++ BitVec.fill 24 b' :=
  permute_eq_of_entries (T := pc2Table) (by revert b b'; decide)

section
variable {k : Block} {b b' : Bool}

/-- No rotation changes a half of one bit. -/
theorem UniformHalves.ksHalves_eq (h : UniformHalves k b b') {i : Nat} (hi : i ≤ 16) :
    ksHalves k i = (BitVec.fill 28 b, BitVec.fill 28 b') := by
  have hstart : ksHalves k 0 = (BitVec.fill 28 b, BitVec.fill 28 b') := by
    rw [ksHalves, h]
    exact Prod.ext BitVec.extractLsb'_append_eq_left BitVec.extractLsb'_append_eq_right
  rw [ksHalves_eq_rotateLeft k hi, hstart, rotateLeft_fill, rotateLeft_fill]

theorem UniformHalves.getElem_keySchedule (h : UniformHalves k b b') (i : Fin 16) :
    (keySchedule k)[i.val] = BitVec.fill 24 b ++ BitVec.fill 24 b' := by
  rw [keySchedule_get, subkey, h.ksHalves_eq i.isLt, subkeyOf_fill]

end

/-- The four keys of R142 are those with uniform halves, and the value listed with each is the subkey of such halves. -/
theorem weakKey_uniformHalves {k : Block} {sub : Subkey}
    (h : (k, sub) ∈ [(0x0101010101010101#64, 0x000000000000#48), (0xFEFEFEFEFEFEFEFE#64, 0xFFFFFFFFFFFF#48),
      (0xE0E0E0E0F1F1F1F1#64, 0xFFFFFF000000#48), (0x1F1F1F1F0E0E0E0E#64, 0x000000FFFFFF#48)]) :
    ∃ b b', UniformHalves k b b' ∧ sub = BitVec.fill 24 b ++ BitVec.fill 24 b' := by
  simp only [List.mem_cons, List.not_mem_nil, or_false, Prod.mk.injEq] at h
  obtain ⟨rfl, rfl⟩ | ⟨rfl, rfl⟩ | ⟨rfl, rfl⟩ | ⟨rfl, rfl⟩ := h
  · exact ⟨false, false, permute_eq_of_entries (by decide), rfl⟩
  · exact ⟨true, true, permute_eq_of_entries (by decide), rfl⟩
  · exact ⟨true, false, permute_eq_of_entries (by decide), rfl⟩
  · exact ⟨false, true, permute_eq_of_entries (by decide), rfl⟩

/-! ### The obligations of 41_key_schedule.md -/

/-- Settles O22: the two ends of KS_ROUND, the rotation and PC2 being those of `ksRound`. -/
theorem ksRoundMicroStep : Obligations.KsRoundMicroStep := by
  intro s c1 d1 hp hrst hone hc hd
  subst hc hd
  rw [step_of_ksRound hp hrst hone]
  refine ⟨fun hlast => ?_, fun hnot => ?_⟩
  · rw [ksRound_of_last (s := s.consumeEdge) hlast]
    rfl
  · rw [ksRound_of_not_last (s := s.consumeEdge) hnot, round_ofNat_succ]
    rfl

/-- Settles O26: a SETKEY and quiet edges enough to finish it, with no edge after them. -/
theorem setkeyTransaction : Obligations.SetkeyTransaction := by
  intro s data es hidle hquiet hmicro
  have hrun := runSteps_command_append (i := .setkey data) hidle rfl hquiet hmicro 0 []
  rwa [List.append_nil] at hrun

/-- Settles O30: the accepted SETKEY is busy for its first sixteen micro-steps, so each further edge makes one, and the
seventeenth completes the transaction. -/
theorem setkeyTakesSeventeenEdges : Obligations.SetkeyTakesSeventeenEdges := by
  intro s data es hidle hes hlen
  obtain ⟨t, ht⟩ := exec_hasNext (.setkey data) s
  have haccept := (step_of_command (i := .setkey data) hidle rfl es).trans (exec_drivenBy ht es)
  have hbusy (n : Nat) (hn : n < 17) : (runMicroSteps n t).phase ≠ .idle :=
    runMicroSteps_ksLoad_busy (exec_setkey_phase ht) hn
  have hrun (n : Nat) (hn : n ≤ 17) :
      runSteps (n + 1) (s.drivenBy (Edge.command 0x1#4 data :: es)) =
        .next ((runMicroSteps n t).drivenBy (es.drop n)) :=
    (runSteps_next n haccept).trans <|
      runSteps_reference_of_busy n hes (hlen ▸ hn) fun m hm => hbusy m (by omega)
  refine ⟨fun n hn => ⟨_, hrun n hn.le, hbusy n hn⟩, (hrun 17 (le_refl 17)).trans ?_⟩
  have hdone : runMicroSteps 17 t = s.afterSetkey data := exec_runMicroSteps ht
  have hrest : es.drop 17 = [] := List.drop_of_length_le hlen.le
  rw [hdone, hrest]

/-- Settles O39: one rotation by SHIFTS[i] a round, and the sixteen of them make one whole turn. -/
theorem rotationsAccumulateAndReturn : Obligations.RotationsAccumulateAndReturn :=
  fun k => ⟨fun _ h => ksHalves_succ k h, ksHalves_sixteen k⟩

/-- Settles O41: the halves of a weak key are of one bit each, so its subkeys are all equal, and the cipher under equal
subkeys is its own inverse. -/
theorem weakKeyEncryptsTwiceToSame : Obligations.WeakKeyEncryptsTwiceToSame := by
  intro k sub h
  obtain ⟨b, b', huniform, rfl⟩ := weakKey_uniformHalves h
  have hsub := huniform.getElem_keySchedule
  exact ⟨hsub, cipher_cipher_of_reversed (reversedSubkeys_of_constant hsub 0#1)⟩

/-- Settles O21: the step is KS_LOAD, whose halves are the split of PC1 of KEY. -/
theorem ksLoadMicroStep : Obligations.KsLoadMicroStep := fun _ => step_of_ksLoad

end Sys2Proof.Machine
end

section
/-! PROOFS. The round function (42_feistel_round.md): the row and column an S-box lookup reads, where the S-box layer
puts its entries, that the rows of the S-boxes are permutations, and what complemented inputs do to F. -/

namespace Sys2Proof.Machine

/-! ### The lookup of a group (R164, R169) -/

/-- The row is read from the two outer bits of the group. -/
theorem sboxRow_toNat : ∀ g : BitVec 6, (sboxRow g).toNat = 2 * (g.getLsbD 5).toNat + (g.getLsbD 0).toNat := by decide

/-- The column is read from the four middle bits of the group. -/
theorem sboxCol_toNat (g : BitVec 6) : (sboxCol g).toNat = g.toNat / 2 % 16 := by
  rw [sboxCol, BitVec.extractLsb'_toNat, Nat.shiftRight_eq_div_pow]

/-- A 2-bit row and a 4-bit column are in range by their widths. -/
theorem sboxChecked_row_col (j : Fin 8) (g : BitVec 6) :
    sboxChecked j.val (sboxRow g).toNat (sboxCol g).toNat = .ok (sboxLookup j g) :=
  dif_pos ⟨j.isLt, (sboxRow g).isLt, (sboxCol g).isLt⟩

theorem sboxChecked_of_not_inRange {j row col : Nat} (h : ¬(j < 8 ∧ row < 4 ∧ col < 16)) :
    sboxChecked j row col = .error .sboxIndexOutOfRange :=
  dif_neg h

/-! ### The S-box layer (R163, R166) -/

/-- Entry j of eight entries side by side: the entries after it are skipped, and it is the last of the rest. -/
theorem extractLsb'_sboxLayer (x : BitVec 48) (j : Fin 8) :
    (sboxLayer x).extractLsb' (28 - 4 * j.val) 4 = sboxLookup j (sboxGroup x j) := by
  change BitVec.extractLsb' (n := 4 + 4 + 4 + 4 + 4 + 4 + 4 + 4) _ _ (_ ++ _) = _
  fin_cases j <;> simp (disch := decide) only [BitVec.extractLsb'_append_eq_of_le]
  · exact BitVec.extractLsb'_eq_self
  all_goals exact BitVec.extractLsb'_append_eq_right

/-! ### The rows of the S-boxes (R170) -/

/-- No entry of a row exceeds 15, so the count of each value of 0..15 is the count of each entry. -/
theorem nodup_of_sboxRowIsPermutation {row : List (BitVec 4)}
    (h : sboxRowIsPermutation (row.map BitVec.toNat) = true) : row.Nodup := by
  simp only [sboxRowIsPermutation, Bool.and_eq_true, List.all_eq_true, List.mem_range, beq_iff_eq] at h
  obtain ⟨-, hcount⟩ := h
  refine List.Nodup.of_map BitVec.toNat (List.nodup_iff_count_eq_one.mpr fun v hv => ?_)
  obtain ⟨entry, -, rfl⟩ := List.mem_map.mp hv
  exact hcount _ entry.isLt

theorem col_eq_of_sboxRowIsPermutation {row : Vector (BitVec 4) 16}
    (h : sboxRowIsPermutation (row.toList.map BitVec.toNat) = true) {col col' : Fin 16}
    (hentry : row[col.val] = row[col'.val]) : col = col' :=
  Fin.ext ((nodup_of_sboxRowIsPermutation h).getElem_inj_iff.mp hentry)

theorem sboxes_rowIsPermutation : ∀ (j : Fin 8) (row : Fin 4),
    sboxRowIsPermutation ((sboxes[j.val][row.val]).toList.map BitVec.toNat) = true := by decide

/-! ### Complemented inputs (R168, R171) -/

/-- A permutation moves bits, so it commutes with the complement of all of them. -/
theorem permute_not {n m : Nat} (T : PermTable n m) (v : BitVec n) : permute T (~~~v) = ~~~permute T v := by
  refine permute_eq_of_entries fun (p, i) hx => ?_
  have hp : T.entries[i]? = some p := List.mem_zipIdx_iff_getElem?.mp hx
  have hi : i < m := T.length_eq ▸ (List.getElem?_eq_some_iff.mp hp).1
  have hpos : n - p < n := by
    have hrange := T.entry_inRange hp
    omega
  simp only [desBit, BitVec.getLsbD_not, BitVec.getMsbD_not, permute_getMsbD T v hp, hi, hpos]

/-- The complement passes through E and the key mixing to the subkey. -/
theorem feistel_not_half (r : Half) (k : Subkey) : feistel (~~~r) k = feistel r (~~~k) := by
  rw [feistel, permute_not, ← BitVec.not_xor_left, BitVec.not_xor_right, feistel]

theorem feistel_not_not (r : Half) (k : Subkey) : feistel (~~~r) (~~~k) = feistel r k := by
  rw [feistel_not_half, BitVec.not_not]

/-! ### The obligations of 42_feistel_round.md -/

/-- Settles O43: the stated row and column are those of the lookup, and the check refuses all other indices. -/
theorem sboxLookupNeverDefaults : Obligations.SboxLookupNeverDefaults := by
  refine ⟨fun j g => ?_, fun _ _ _ => sboxChecked_of_not_inRange⟩
  rw [← sboxRow_toNat, ← sboxCol_toNat, sboxChecked_row_col]

/-- Settles O44: the bits of x the statement names are group j. -/
theorem sboxLayerPlacesEntries : Obligations.SboxLayerPlacesEntries := extractLsb'_sboxLayer

/-- Settles O45: a complemented half is a complemented subkey, and two complements of the subkey cancel. -/
theorem roundFunctionComplement : Obligations.RoundFunctionComplement :=
  fun r k => ⟨feistel_not_half r k, feistel_not_not r k⟩

/-- Settles O42: the rows are checked value by value, and a row without repetition has one column for an entry. -/
theorem sboxRowsArePermutations : Obligations.SboxRowsArePermutations := fun j row =>
  have hperm := sboxes_rowIsPermutation j row
  ⟨hperm, fun _ _ => col_eq_of_sboxRowIsPermutation hperm⟩

end Sys2Proof.Machine
end

section
/-! PROOFS. The block cipher (43_block_cipher.md): the invariant of its state machine, what its micro-steps write, a
cipher command as a whole and its edges in the reference timing, the agreement with the transaction-level model under
every drive of the ports, and that decryption undoes encryption and complements pass through it. -/

namespace Sys2Proof.Machine

/-! ### The cipher state follows the source's state machine (R194, R197) -/

theorem State.cipherOnTrack_of_ksLoad {s : State} (h : s.phase = .ksLoad) : s.cipherOnTrack := by
  cases s; cases h; trivial

theorem State.cipherOnTrack_of_ksRound {s : State} (h : s.phase = .ksRound) : s.cipherOnTrack := by
  cases s; cases h; trivial

theorem State.cipherOnTrack_of_ciLoad {s : State} (h : s.phase = .ciLoad) : s.cipherOnTrack := by
  cases s; cases h; trivial

theorem State.cipherOnTrack_iff_of_ciRound {s : State} (h : s.phase = .ciRound) :
    s.cipherOnTrack ↔ (s.l, s.r) = cipherHalves s.din s.sk s.dir s.rnd.toNat := by
  cases s; cases h; exact Iff.rfl

theorem State.cipherOnTrack_iff_of_ciSwap {s : State} (h : s.phase = .ciSwap) :
    s.cipherOnTrack ↔ (s.l, s.r) = cipherHalves s.din s.sk s.dir 16 := by
  cases s; cases h; exact Iff.rfl

theorem State.cipherOnTrack_iff_of_ciOut {s : State} (h : s.phase = .ciOut) :
    s.cipherOnTrack ↔ s.pre = preOutput (cipherHalves s.din s.sk s.dir 16) := by
  cases s; cases h; exact Iff.rfl

theorem ksRound_cipherOnTrack {s : State} (hp : s.phase = .ksRound) : (ksRound s).cipherOnTrack := by
  by_cases hlast : s.rnd = 15#4
  · exact State.cipherOnTrack_of_idle (by simp [hlast])
  · exact State.cipherOnTrack_of_ksRound (by simp [hlast, hp])

theorem ciLoad_cipherOnTrack (s : State) : (ciLoad s).cipherOnTrack :=
  (State.cipherOnTrack_iff_of_ciRound (ciLoad_phase s)).mpr rfl

/-- The sixteenth round leaves L_16 and R_16 to CI_SWAP, the others L_r and R_r to the next round. -/
theorem ciRound_cipherOnTrack {s : State} (hp : s.phase = .ciRound) (h : s.cipherOnTrack) :
    (ciRound s).cipherOnTrack := by
  have hhalves := ciRound_halves ((State.cipherOnTrack_iff_of_ciRound hp).mp h)
  by_cases hlast : s.rnd = 15#4
  · rw [hlast] at hhalves
    exact (State.cipherOnTrack_iff_of_ciSwap (by simp [hlast])).mpr hhalves
  · rw [State.cipherOnTrack_iff_of_ciRound (by simp [hlast, hp]), ciRound_rnd, if_neg hlast,
      round_succ_toNat _ hlast]
    exact hhalves

theorem ciSwap_cipherOnTrack {s : State} (hp : s.phase = .ciSwap) (h : s.cipherOnTrack) :
    (ciSwap s).cipherOnTrack :=
  (State.cipherOnTrack_iff_of_ciOut (ciSwap_phase s)).mpr
    (congrArg preOutput ((State.cipherOnTrack_iff_of_ciSwap hp).mp h))

theorem microStep_keeps_cipherOnTrack (s : State) (h : s.cipherOnTrack) : (microStep s).cipherOnTrack := by
  cases hp : s.phase with
  | idle => rwa [microStep_idle hp]
  | ksLoad => exact State.cipherOnTrack_of_ksRound (by rw [microStep_of_ksLoad hp, ksLoad_phase])
  | ksRound =>
    rw [microStep_of_ksRound hp]
    exact ksRound_cipherOnTrack hp
  | ciLoad =>
    rw [microStep_of_ciLoad hp]
    exact ciLoad_cipherOnTrack s
  | ciRound =>
    rw [microStep_of_ciRound hp]
    exact ciRound_cipherOnTrack hp h
  | ciSwap =>
    rw [microStep_of_ciSwap hp]
    exact ciSwap_cipherOnTrack hp h
  | ciOut => exact State.cipherOnTrack_of_idle (by rw [microStep_of_ciOut hp, ciOut_phase])

/-- Acceptance leaves a phase before the first round, or an IDLE block. -/
theorem exec_keeps_cipherOnTrack (i : Instr) (s t : State) (hidle : s.phase = .idle) (_ : s.cipherOnTrack)
    (h : exec i s = .next t) : t.cipherOnTrack := by
  obtain ⟨_, _, rfl⟩ | ⟨_, _, _, rfl⟩ | ⟨_, _, rfl⟩ := exec_cases h
  · exact State.cipherOnTrack_of_ksLoad rfl
  · exact State.cipherOnTrack_of_ciLoad rfl
  · exact State.cipherOnTrack_of_idle (by simp [hidle])

theorem State.resetWith_cipherOnTrack (n : Nat) (es : List Edge) : (State.resetWith n es).cipherOnTrack :=
  State.cipherOnTrack_of_idle rfl

/-! ### The micro-steps of a cipher command (R192, R193, R195, R196) -/

theorem step_of_ciLoad {s : State} (hp : s.phase = .ciLoad) (hrst : s.edge.rst = false) (hone : s.edge.microSteps = 1) :
    step s = .next (ciLoad s.consumeEdge) := by
  rw [step_of_busy_reference hrst (by simp [hp]) hone, microStep_of_ciLoad (s := s.consumeEdge) hp]

theorem step_of_ciRound {s : State} (hp : s.phase = .ciRound) (hrst : s.edge.rst = false)
    (hone : s.edge.microSteps = 1) : step s = .next (ciRound s.consumeEdge) := by
  rw [step_of_busy_reference hrst (by simp [hp]) hone, microStep_of_ciRound (s := s.consumeEdge) hp]

theorem step_of_ciSwap {s : State} (hp : s.phase = .ciSwap) (hrst : s.edge.rst = false) (hone : s.edge.microSteps = 1) :
    step s = .next (ciSwap s.consumeEdge) := by
  rw [step_of_busy_reference hrst (by simp [hp]) hone, microStep_of_ciSwap (s := s.consumeEdge) hp]

theorem step_of_ciOut {s : State} (hp : s.phase = .ciOut) (hrst : s.edge.rst = false) (hone : s.edge.microSteps = 1) :
    step s = .next (ciOut s.consumeEdge) := by
  rw [step_of_busy_reference hrst (by simp [hp]) hone, microStep_of_ciOut (s := s.consumeEdge) hp]

/-- CI_ROUND writes L and R, and RND or PHASE. -/
theorem ciRound_eq (s : State) : ciRound s = { s with
    l := (ciRound s).l
    r := (ciRound s).r
    rnd := if s.rnd = 15#4 then s.rnd else s.rnd + 1#4
    phase := if s.rnd = 15#4 then .ciSwap else s.phase } := rfl

/-- The sixteenth CI_ROUND keeps RND and goes on to CI_SWAP (10_state.md R39). -/
theorem ciRound_of_last {s : State} (h : s.rnd = 15#4) :
    ciRound s = { s with l := (ciRound s).l, r := (ciRound s).r, phase := .ciSwap } :=
  (ciRound_eq s).trans (by rw [if_pos h, if_pos h])

/-- The other CI_ROUNDs count on and keep PHASE. -/
theorem ciRound_of_not_last {s : State} (h : s.rnd ≠ 15#4) :
    ciRound s = { s with l := (ciRound s).l, r := (ciRound s).r, rnd := s.rnd + 1#4 } :=
  (ciRound_eq s).trans (by rw [if_neg h, if_neg h])

theorem subkeyOrder_decrypt_toNat : ∀ r : Round, (subkeyOrder 1#1 r).toNat = 15 - r.toNat := by decide

theorem direction_cases : ∀ dir : BitVec 1, dir = 0#1 ∨ dir = 1#1 := by decide

/-- Encryption reads the subkeys upward and decryption downward (R191). -/
theorem readSk_subkeyOrder {s : State} {k : Subkey} (hencrypt : s.dir = 0#1 → k = s.sk[s.rnd.toNat]'s.rnd.isLt)
    (hdecrypt : s.dir = 1#1 → some k = s.sk[15 - s.rnd.toNat]?) : s.readSk (subkeyOrder s.dir s.rnd) = k := by
  obtain hdir | hdir := direction_cases s.dir
  · rw [hencrypt hdir, hdir]
    rfl
  · apply Option.some_inj.mp
    rw [hdecrypt hdir, hdir, ← subkeyOrder_decrypt_toNat]
    exact (Vector.getElem?_eq_getElem (subkeyOrder 1#1 s.rnd).isLt).symm

/-! ### How many micro-steps a block still takes (41_key_schedule.md R140, R197) -/

/-- The micro-steps from a state to IDLE. -/
def State.microStepsLeft (s : State) : Nat :=
  match s.phase with
  | .idle => 0
  | .ksLoad => 17
  | .ksRound => 16 - s.rnd.toNat
  | .ciLoad => 19
  | .ciRound => 18 - s.rnd.toNat
  | .ciSwap => 2
  | .ciOut => 1

theorem State.microStepsLeft_of_idle {s : State} (h : s.phase = .idle) : s.microStepsLeft = 0 := by
  cases s; cases h; rfl

theorem State.microStepsLeft_of_ksLoad {s : State} (h : s.phase = .ksLoad) : s.microStepsLeft = 17 := by
  cases s; cases h; rfl

theorem State.microStepsLeft_of_ksRound {s : State} (h : s.phase = .ksRound) :
    s.microStepsLeft = 16 - s.rnd.toNat := by
  cases s; cases h; rfl

theorem State.microStepsLeft_of_ciLoad {s : State} (h : s.phase = .ciLoad) : s.microStepsLeft = 19 := by
  cases s; cases h; rfl

theorem State.microStepsLeft_of_ciRound {s : State} (h : s.phase = .ciRound) :
    s.microStepsLeft = 18 - s.rnd.toNat := by
  cases s; cases h; rfl

theorem State.microStepsLeft_of_ciSwap {s : State} (h : s.phase = .ciSwap) : s.microStepsLeft = 2 := by
  cases s; cases h; rfl

theorem State.microStepsLeft_of_ciOut {s : State} (h : s.phase = .ciOut) : s.microStepsLeft = 1 := by
  cases s; cases h; rfl

theorem State.microStepsLeft_eq_zero_iff {s : State} : s.microStepsLeft = 0 ↔ s.phase = .idle := by
  have hrnd := s.rnd.isLt
  cases hp : s.phase with
  | ksRound =>
    rw [State.microStepsLeft_of_ksRound hp]
    exact iff_of_false (by omega) nofun
  | ciRound =>
    rw [State.microStepsLeft_of_ciRound hp]
    exact iff_of_false (by omega) nofun
  | idle => exact iff_of_true (State.microStepsLeft_of_idle hp) rfl
  | ksLoad =>
    rw [State.microStepsLeft_of_ksLoad hp]
    simp
  | ciLoad =>
    rw [State.microStepsLeft_of_ciLoad hp]
    simp
  | ciSwap =>
    rw [State.microStepsLeft_of_ciSwap hp]
    simp
  | ciOut =>
    rw [State.microStepsLeft_of_ciOut hp]
    simp

theorem ksRound_microStepsLeft {s : State} (hp : s.phase = .ksRound) :
    (ksRound s).microStepsLeft = s.microStepsLeft - 1 := by
  rw [State.microStepsLeft_of_ksRound hp]
  by_cases hlast : s.rnd = 15#4
  · rw [State.microStepsLeft_of_idle (by simp [hlast]), hlast]
    rfl
  · rw [State.microStepsLeft_of_ksRound (by simp [hlast, hp]), ksRound_rnd, if_neg hlast, round_succ_toNat _ hlast]
    omega

theorem ciRound_microStepsLeft {s : State} (hp : s.phase = .ciRound) :
    (ciRound s).microStepsLeft = s.microStepsLeft - 1 := by
  rw [State.microStepsLeft_of_ciRound hp]
  by_cases hlast : s.rnd = 15#4
  · rw [State.microStepsLeft_of_ciSwap (by simp [hlast]), hlast]
    rfl
  · rw [State.microStepsLeft_of_ciRound (by simp [hlast, hp]), ciRound_rnd, if_neg hlast, round_succ_toNat _ hlast]
    omega

theorem microStep_microStepsLeft (s : State) : (microStep s).microStepsLeft = s.microStepsLeft - 1 := by
  cases hp : s.phase with
  | idle => rw [microStep_idle hp, State.microStepsLeft_of_idle hp]
  | ksLoad =>
    rw [microStep_of_ksLoad hp, State.microStepsLeft_of_ksLoad hp, State.microStepsLeft_of_ksRound (ksLoad_phase s),
      ksLoad_rnd]
    rfl
  | ksRound => rw [microStep_of_ksRound hp, ksRound_microStepsLeft hp]
  | ciLoad =>
    rw [microStep_of_ciLoad hp, State.microStepsLeft_of_ciLoad hp, State.microStepsLeft_of_ciRound (ciLoad_phase s),
      ciLoad_rnd]
    rfl
  | ciRound => rw [microStep_of_ciRound hp, ciRound_microStepsLeft hp]
  | ciSwap =>
    rw [microStep_of_ciSwap hp, State.microStepsLeft_of_ciSwap hp, State.microStepsLeft_of_ciOut (ciSwap_phase s)]
  | ciOut => rw [microStep_of_ciOut hp, State.microStepsLeft_of_ciOut hp, State.microStepsLeft_of_idle (ciOut_phase s)]

theorem runMicroSteps_microStepsLeft (n : Nat) (s : State) :
    (runMicroSteps n s).microStepsLeft = s.microStepsLeft - n := by
  induction n generalizing s with
  | zero => rfl
  | succ n ih => rw [runMicroSteps, ih, microStep_microStepsLeft, Nat.sub_sub, Nat.add_comm]

/-- A block is busy until it has made the micro-steps left to it. -/
theorem runMicroSteps_phase_ne_idle {s : State} {n : Nat} (h : n < s.microStepsLeft) :
    (runMicroSteps n s).phase ≠ .idle := by
  rw [ne_eq, ← State.microStepsLeft_eq_zero_iff, runMicroSteps_microStepsLeft]
  omega

/-- Acceptance leaves the micro-steps of the accepted command, and of an illegal one none. -/
theorem exec_microStepsLeft {i : Instr} {s t : State} (hidle : s.phase = .idle) (h : exec i s = .next t) :
    t.microStepsLeft = commandMicroSteps i := by
  obtain ⟨data, rfl, rfl⟩ | ⟨data, dir, ⟨rfl, rfl⟩ | ⟨rfl, rfl⟩, rfl⟩ |
    ⟨op, ⟨data, rfl | rfl | rfl⟩, rfl⟩ := exec_cases h
  · exact State.microStepsLeft_of_ksLoad rfl
  · exact State.microStepsLeft_of_ciLoad rfl
  · exact State.microStepsLeft_of_ciLoad rfl
  · exact State.microStepsLeft_of_idle hidle
  · exact State.microStepsLeft_of_idle hidle
  · exact State.microStepsLeft_of_idle hidle

/-! ### A cipher command as a whole (R200, R201, 70_reset_and_hazards.md R266) -/

/-- A command and quiet edges enough to finish it, with no edge after them, leave the command applied whole. -/
theorem runSteps_command {s : State} (hidle : s.phase = .idle) {i : Instr} (hwf : i.wellFormed = true)
    {es : List Edge} (hquiet : quietEdges es) (hmicro : commandMicroSteps i ≤ microTotal es) :
    runSteps (es.length + 1) (s.drivenBy (Edge.command i.op i.data :: es)) = .next ((s.transact i).drivenBy []) := by
  have hrun := runSteps_command_append hidle hwf hquiet hmicro 0 []
  rwa [List.append_nil] at hrun

/-- A micro-step that leaves the block busy is no CI_OUT, the one that writes DOUT (10_state.md R41). -/
theorem microStep_dout_of_busy {s : State} (h : (microStep s).phase ≠ .idle) : (microStep s).dout = s.dout :=
  microStep_dout_of_ne_ciOut fun hout => h (by rw [microStep_of_ciOut hout, ciOut_phase])

theorem runMicroSteps_dout_of_busy {n : Nat} {s : State} (h : (runMicroSteps n s).phase ≠ .idle) :
    (runMicroSteps n s).dout = s.dout := by
  induction n generalizing s with
  | zero => rfl
  | succ n ih =>
    rw [runMicroSteps] at h ⊢
    have hbusy : (microStep s).phase ≠ .idle := fun hidle => h (by rwa [runMicroSteps_idle n hidle])
    rw [ih h, microStep_dout_of_busy hbusy]

/-- In the reference timing an accepted command makes one micro-step an edge until it is complete, whatever commands
stand on the ports (70_reset_and_hazards.md R265, R272). -/
theorem runSteps_command_reference {s t : State} (hidle : s.phase = .idle) {i : Instr} (hwf : i.wellFormed = true)
    (ht : exec i s = .next t) {es : List Edge} (hes : referenceEdges es) {n : Nat} (hlen : n ≤ es.length)
    (hn : n ≤ commandMicroSteps i) :
    runSteps (n + 1) (s.drivenBy (Edge.command i.op i.data :: es)) =
      .next ((runMicroSteps n t).drivenBy (es.drop n)) := by
  rw [runSteps_next n ((step_of_command hidle hwf es).trans (exec_drivenBy ht es))]
  refine runSteps_reference_of_busy n hes hlen fun m hm => runMicroSteps_phase_ne_idle ?_
  rw [exec_microStepsLeft hidle ht]
  omega

/-- What the reference timing shows of a command: before its last micro-step the block is busy and DOUT holds the
previous result, and with it the command is complete. -/
theorem runSteps_command_reference_dout {s : State} (hidle : s.phase = .idle) {i : Instr} (hwf : i.wellFormed = true)
    {es : List Edge} (hes : referenceEdges es) (hlen : es.length = commandMicroSteps i) :
    (∀ n < commandMicroSteps i, ∃ t : State,
      runSteps (n + 1) (s.drivenBy (Edge.command i.op i.data :: es)) = .next t ∧ t.phase ≠ .idle ∧
        t.dout = s.dout) ∧
    runSteps (commandMicroSteps i + 1) (s.drivenBy (Edge.command i.op i.data :: es)) =
      .next ((s.transact i).drivenBy []) := by
  obtain ⟨t, ht⟩ := exec_hasNext i s
  constructor
  · intro n hn
    have hbusy : (runMicroSteps n t).phase ≠ .idle :=
      runMicroSteps_phase_ne_idle (by rwa [exec_microStepsLeft hidle ht])
    exact ⟨_, runSteps_command_reference hidle hwf ht hes (by omega) hn.le, hbusy,
      (runMicroSteps_dout_of_busy hbusy).trans (exec_dout ht)⟩
  · rw [runSteps_command_reference hidle hwf ht hes hlen.ge le_rfl, exec_runMicroSteps ht,
      List.drop_of_length_le hlen.le]

/-! ### Every drive of the ports, resets included (R203, 70_reset_and_hazards.md R261) -/

/-- The micro-step model's state, `s`, beside the transaction-level model's, `u` with a command in progress not yet
applied: `s` is `u` at IDLE, and otherwise the micro-steps the command still takes make of `s` the command applied
whole to `u`. -/
def Follows (u : State) (p : Option InProgress) (s : State) : Prop :=
  u.phase = .idle ∧
    p.elim (s = u) fun q =>
      0 < q.left ∧ s.microStepsLeft = q.left ∧ runMicroSteps q.left s = u.transact q.command

theorem follows_none_iff {u s : State} : Follows u none s ↔ u.phase = .idle ∧ s = u := Iff.rfl

theorem follows_some_iff {u s : State} {q : InProgress} :
    Follows u (some q) s ↔ u.phase = .idle ∧
      0 < q.left ∧ s.microStepsLeft = q.left ∧ runMicroSteps q.left s = u.transact q.command := Iff.rfl

theorem follows_of_idle {u : State} (hidle : u.phase = .idle) : Follows u none u := follows_none_iff.mpr ⟨hidle, rfl⟩

theorem transact_resets (s : State) (i : Instr) : (s.transact i).resets = s.resets := by
  cases i <;> rfl

theorem Follows.phase_eq_idle_iff {u s : State} {p : Option InProgress} (h : Follows u p s) :
    s.phase = .idle ↔ p = none := by
  cases p with
  | none =>
    obtain ⟨hidle, rfl⟩ := follows_none_iff.mp h
    exact iff_of_true hidle rfl
  | some q =>
    obtain ⟨-, hpos, hleft, -⟩ := follows_some_iff.mp h
    rw [← State.microStepsLeft_eq_zero_iff, hleft]
    exact iff_of_false hpos.ne' (Option.some_ne_none q)

theorem Follows.resets_eq {u s : State} {p : Option InProgress} (h : Follows u p s) : s.resets = u.resets := by
  cases p with
  | none =>
    obtain ⟨-, rfl⟩ := follows_none_iff.mp h
    rfl
  | some q =>
    obtain ⟨-, -, -, hend⟩ := follows_some_iff.mp h
    rw [← runMicroSteps_resets q.left s, hend, transact_resets]

/-- Acceptance starts a command, and completes an illegal one. -/
theorem follows_of_exec {i : Instr} {u t : State} (hidle : u.phase = .idle) (h : exec i u = .next t) :
    Follows (u.transactAll (acceptTransaction i).1) (acceptTransaction i).2 t := by
  have hend := exec_runMicroSteps h
  rw [acceptTransaction]
  split_ifs with hzero
  · rw [hzero, runMicroSteps] at hend
    subst hend
    exact follows_of_idle (transact_phase i hidle)
  · exact follows_some_iff.mpr ⟨hidle, Nat.pos_of_ne_zero hzero, exec_microStepsLeft hidle h, hend⟩

/-- Micro-steps enough for the command in progress complete it. -/
theorem Follows.runMicroSteps_complete {u s : State} {q : InProgress} (h : Follows u (some q) s) {n : Nat}
    (hn : q.left ≤ n) : Follows (u.transact q.command) none (runMicroSteps n s) := by
  obtain ⟨hidle, -, -, hend⟩ := follows_some_iff.mp h
  have hidle' := transact_phase q.command hidle
  rw [← Nat.add_sub_cancel' hn, runMicroSteps_add, hend, runMicroSteps_idle _ hidle']
  exact follows_of_idle hidle'

/-- Fewer micro-steps bring it nearer its end. -/
theorem Follows.runMicroSteps_progress {u s : State} {q : InProgress} (h : Follows u (some q) s) {n : Nat}
    (hn : n < q.left) : Follows u (some { q with left := q.left - n }) (runMicroSteps n s) := by
  obtain ⟨hidle, -, hleft, hend⟩ := follows_some_iff.mp h
  refine follows_some_iff.mpr ⟨hidle, Nat.sub_pos_of_lt hn, by rw [runMicroSteps_microStepsLeft, hleft], ?_⟩
  rw [← runMicroSteps_add, Nat.add_sub_cancel' hn.le, hend]

/-- One edge takes both models on together. -/
theorem Follows.next {u s : State} {p : Option InProgress} (h : Follows u p s) (e : Edge) (es : List Edge) :
    ∃ t, step (s.drivenBy (e :: es)) = .next (t.drivenBy es) ∧
      Follows (u.transactAll (transactEdge p e).1) (transactEdge p e).2 t := by
  obtain ⟨hrst, hx⟩ | ⟨hrst, rfl, hvalid, hx⟩ | ⟨hrst, rfl, hvalid, hx⟩ | ⟨q, hrst, rfl, hdone, hx⟩ |
    ⟨q, hrst, rfl, hnot, hx⟩ := transactEdge_cases p e <;> rw [hx]
  · refine ⟨u.resetEdge, ?_, follows_of_idle rfl⟩
    rw [step_of_rst (s := s.drivenBy (e :: es)) hrst, State.drivenBy_consumeEdge_cons, State.resetEdge,
      State.drivenBy_resets, h.resets_eq]
    rfl
  · obtain ⟨hidle, rfl⟩ := follows_none_iff.mp h
    obtain ⟨t, ht⟩ := exec_hasNext (decode e.word) s
    have haccept := step_of_accept (s := s.drivenBy (e :: es)) hrst hidle hvalid
    exact ⟨t, haccept.trans (exec_drivenBy ht es), follows_of_exec hidle ht⟩
  · obtain ⟨hidle, rfl⟩ := follows_none_iff.mp h
    exact ⟨s, step_of_idle_quiet (s := s.drivenBy (e :: es)) hrst hidle hvalid, h⟩
  · have hbusy := h.phase_eq_idle_iff.not.mpr (Option.some_ne_none q)
    exact ⟨_, step_of_no_acceptance s e es hrst (.inl hbusy), h.runMicroSteps_complete hdone⟩
  · have hbusy := h.phase_eq_idle_iff.not.mpr (Option.some_ne_none q)
    exact ⟨_, step_of_no_acceptance s e es hrst (.inl hbusy), h.runMicroSteps_progress hnot⟩

theorem Follows.run {u s : State} {p : Option InProgress} (h : Follows u p s) (es : List Edge) :
    ∃ t, runSteps es.length (s.drivenBy es) = .next (t.drivenBy []) ∧
      Follows (u.transactAll (transactionsOf p es).1) (transactionsOf p es).2 t := by
  induction es generalizing u s p with
  | nil => exact ⟨s, rfl, h⟩
  | cons e es ih =>
    obtain ⟨v, hv, hfollows⟩ := h.next e es
    obtain ⟨t, ht, hend⟩ := ih hfollows
    refine ⟨t, (runSteps_next _ hv).trans ht, ?_⟩
    rwa [transactionsOf_cons, transactAll_append]

/-! ### The subkeys of decryption are those of encryption in reverse order (R191) -/

theorem subkeyOrder_decrypt_reverses : ∀ r < 16,
    subkeyOrder 1#1 (BitVec.ofNat 4 r) = subkeyOrder 0#1 (BitVec.ofNat 4 (15 - r)) := by decide

theorem reversedSubkeys_decrypt (K : Subkeys) : ReversedSubkeys K 0#1 K 1#1 :=
  fun r hr => congrArg (entry16 K) (subkeyOrder_decrypt_reverses r hr)

/-! ### Complemented key and block (95_test_vectors.md section 2.5) -/

/-- Both halves complemented. -/
def notHalves {w : Nat} (h : BitVec w × BitVec w) : BitVec w × BitVec w := (~~~h.1, ~~~h.2)

theorem extractLsb'_not_of_le {w start len : Nat} (x : BitVec w) (h : start + len ≤ w) :
    (~~~x).extractLsb' start len = ~~~x.extractLsb' start len := by
  apply BitVec.eq_of_getLsbD_eq
  intro i hi
  have hin : start + i < w := by omega
  simp [hi, hin]

theorem rotateLeft_not {w : Nat} (x : BitVec w) (s : Nat) : (~~~x).rotateLeft s = ~~~x.rotateLeft s := by
  apply BitVec.eq_of_getMsbD_eq
  intro i hi
  have hmod : (s + i) % w < w := Nat.mod_lt _ (by omega)
  simp [BitVec.getMsbD_rotateLeft, hi, hmod]

theorem splitCD_not (cd : BitVec 56) : splitCD (~~~cd) = notHalves (splitCD cd) :=
  Prod.ext (extractLsb'_not_of_le cd (by decide)) (extractLsb'_not_of_le cd (by decide))

theorem splitLR_not (v : Block) : splitLR (~~~v) = notHalves (splitLR v) :=
  Prod.ext (extractLsb'_not_of_le v (by decide)) (extractLsb'_not_of_le v (by decide))

theorem subkeyOf_not (c d : KeyHalf) : subkeyOf (~~~c) (~~~d) = ~~~subkeyOf c d := by
  rw [subkeyOf, ← BitVec.not_append, permute_not, subkeyOf]

theorem ksHalves_not (k : Block) {i : Nat} (hi : i ≤ 16) : ksHalves (~~~k) i = notHalves (ksHalves k i) := by
  have hstart : ksHalves (~~~k) 0 = notHalves (ksHalves k 0) := by
    rw [ksHalves, permute_not, splitCD_not, ksHalves]
  rw [ksHalves_eq_rotateLeft (~~~k) hi, hstart, ksHalves_eq_rotateLeft k hi]
  exact Prod.ext (rotateLeft_not _ _) (rotateLeft_not _ _)

theorem entry16_keySchedule_not (k : Block) (i : Round) :
    entry16 (keySchedule (~~~k)) i = ~~~entry16 (keySchedule k) i := by
  have hi : i.toNat + 1 ≤ 16 := i.isLt
  rw [entry16_keySchedule, entry16_keySchedule, subkey, ksHalves_not k hi, notHalves, subkeyOf_not, subkey]

/-- F sees no complement of both its inputs, so the complement of the half it is added to remains. -/
theorem cipherRound_not (lr : Half × Half) (k : Subkey) :
    cipherRound (notHalves lr) (~~~k) = notHalves (cipherRound lr k) :=
  have hright : ~~~lr.1 ^^^ feistel (~~~lr.2) (~~~k) = ~~~(lr.1 ^^^ feistel lr.2 k) := by
    rw [feistel_not_not, BitVec.not_xor_left]
  Prod.ext rfl hright

theorem preOutput_not (lr : Half × Half) : preOutput (notHalves lr) = ~~~preOutput lr :=
  BitVec.not_append.symm

section
variable {K K' : Subkeys} (h : ∀ i, entry16 K' i = ~~~entry16 K i)
include h

theorem cipherHalves_not (m : Block) (dir : BitVec 1) (r : Nat) :
    cipherHalves (~~~m) K' dir r = notHalves (cipherHalves m K dir r) := by
  induction r with
  | zero => rw [cipherHalves, permute_not, splitLR_not, cipherHalves]
  | succ r ih => rw [cipherHalves, ih, h, cipherRound_not, cipherHalves]

theorem cipher_not (m : Block) (dir : BitVec 1) : cipher (~~~m) K' dir = ~~~cipher m K dir := by
  rw [cipher, cipherHalves_not h, preOutput_not, permute_not, cipher]

end

/-! ### The obligations of 43_block_cipher.md -/

/-- Settles O49: acceptance and reset leave a phase the invariant says nothing of, CI_LOAD starts with the halves of
round 0, and each CI_ROUND takes them on by one round. -/
theorem stepKeepsCipherOnTrack : Obligations.StepKeepsCipherOnTrack :=
  fun _ _ hs h => step_keeps State.resetWith_cipherOnTrack (fun _ hs => hs) exec_keeps_cipherOnTrack
    microStep_keeps_cipherOnTrack hs h

/-- Settles O24: the two ends of CI_ROUND, with the subkey the order of DIR selects. -/
theorem ciRoundMicroStep : Obligations.CiRoundMicroStep := by
  intro s k hp hrst hone hencrypt hdecrypt
  rw [step_of_ciRound hp hrst hone, ← readSk_subkeyOrder hencrypt hdecrypt]
  refine ⟨fun hlast => ?_, fun hnot => ?_⟩
  · rw [ciRound_of_last (s := s.consumeEdge) hlast]
    rfl
  · rw [ciRound_of_not_last (s := s.consumeEdge) hnot, round_ofNat_succ]
    rfl

/-- Settles O27: the run of the command, and the schedule of KEY in place of SK. -/
theorem encryptTransaction : Obligations.EncryptTransaction :=
  fun _ data _ hidle hquiet hmicro =>
    ⟨runSteps_command (i := .encrypt data) hidle rfl hquiet hmicro, congrArg fun K => cipher data K 0#1⟩

/-- Settles O28: as O27, with DIR = 1. -/
theorem decryptTransaction : Obligations.DecryptTransaction :=
  fun _ data _ hidle hquiet hmicro =>
    ⟨runSteps_command (i := .decrypt data) hidle rfl hquiet hmicro, congrArg fun K => cipher data K 1#1⟩

/-- Settles O31: either opcode is that of a command of nineteen micro-steps, of which only the last writes DOUT. -/
theorem cipherTakesNineteenEdges : Obligations.CipherTakesNineteenEdges := by
  intro s op dir data es hidle hes hlen hop
  obtain ⟨rfl, rfl⟩ | ⟨rfl, rfl⟩ := hop
  · exact runSteps_command_reference_dout (i := .encrypt data) hidle rfl hes hlen
  · exact runSteps_command_reference_dout (i := .decrypt data) hidle rfl hes hlen

/-- Settles O46: decryption takes the subkeys of encryption in reverse order, and so undoes its rounds. -/
theorem decryptUndoesEncrypt : Obligations.DecryptUndoesEncrypt :=
  fun k => cipher_cipher_of_reversed (reversedSubkeys_decrypt (keySchedule k))

/-- Settles O47: a complemented key has complemented subkeys, under which each round takes complemented halves to
complemented halves. -/
theorem complementationProperty : Obligations.ComplementationProperty :=
  fun k m => cipher_not (entry16_keySchedule_not k) m 0#1

/-- Settles O53: by the two invariants CI_OUT applies FP to the pre-output of DIN under the schedule of KEY. -/
theorem completionWritesDesResult : Obligations.CompletionWritesDesResult := by
  intro s hfit htrack hp hrst hone
  have hsk : s.sk = keySchedule s.key :=
    (State.subkeysFit_iff_of_not_setkey (by simp [hp]) (by simp [hp])).mp hfit
  have hpre := (State.cipherOnTrack_iff_of_ciOut hp).mp htrack
  have hdout : (ciOut s.consumeEdge).dout = cipher s.din (keySchedule s.key) s.dir := by
    rw [ciOut_dout, State.consumeEdge_pre, hpre, hsk, cipher]
  exact ⟨_, step_of_ciOut hp hrst hone, rfl, rfl, fun hdir => by rw [hdout, hdir, desEnc],
    fun hdir => by rw [hdout, hdir, desDec]⟩

/-- Settles O60: both models start at IDLE, every edge takes them on together, and at IDLE they hold one state. -/
theorem transactionsOfEveryDriveAgreeAtIdle : Obligations.TransactionsOfEveryDriveAgreeAtIdle := by
  intro s es hidle
  obtain ⟨t, hrun, hfollows⟩ := (follows_of_idle hidle).run es
  refine ⟨t.drivenBy [], hrun, hfollows.phase_eq_idle_iff, fun ht => ?_⟩
  rw [hfollows.phase_eq_idle_iff.mp ht] at hfollows
  obtain ⟨-, rfl⟩ := follows_none_iff.mp hfollows
  rfl

/-- Settles O23: the step is CI_LOAD, whose halves are the split of IP of DIN. -/
theorem ciLoadMicroStep : Obligations.CiLoadMicroStep := fun _ => step_of_ciLoad

/-- Settles O25: the step is the micro-step its phase names. -/
theorem ciSwapAndCiOutMicroSteps : Obligations.CiSwapAndCiOutMicroSteps :=
  fun _ hrst hone => ⟨fun hp => step_of_ciSwap hp hrst hone, fun hp => step_of_ciOut hp hrst hone⟩

end Sys2Proof.Machine
end

section
/-! PROOFS. The block's one exception (60_exceptions.md): an illegal command at its acceptance, and the legal command
after it. -/

namespace Sys2Proof.Machine

/-- A well-formed instruction with a legal opcode is no illegal row's (30_encoding.md R83, R84). -/
theorem legal_cases_of_op {i : Instr} (hwf : i.wellFormed = true) (hop : i.op = 0x1#4 ∨ i.op = 0x2#4 ∨ i.op = 0x3#4) :
    i = .setkey i.data ∨ i = .encrypt i.data ∨ i = .decrypt i.data := by
  have hdecode := (decodeFields_op_data hwf).symm
  obtain h | h | h := hop <;> rw [h] at hdecode
  · exact .inl hdecode
  · exact .inr (.inl hdecode)
  · exact .inr (.inr hdecode)

/-- A legal command clears ERR at its acceptance, whatever the status before it (30_encoding.md R81). -/
theorem exec_clears_err_of_legal_op {i : Instr} (hwf : i.wellFormed = true)
    (hop : i.op = 0x1#4 ∨ i.op = 0x2#4 ∨ i.op = 0x3#4) (s : State) : ∃ t, exec i s = .next t ∧ t.err = false := by
  obtain h | h | h := legal_cases_of_op hwf hop <;> rw [h]
  · exact ⟨_, setkeyAcceptance i.data s, rfl⟩
  · exact ⟨_, (cipherAcceptance i.data s).1, rfl⟩
  · exact ⟨_, (cipherAcceptance i.data s).2, rfl⟩

/-- Settles O18: each illegal row is one raise of IllegalCommand on cleared status, and acceptance of a legal command
does not depend on the status it finds. -/
theorem illegalCommandSetsErrOnly : Obligations.IllegalCommandSetsErrOnly := fun _ _ _ =>
  ⟨rfl, rfl, rfl, fun _ hop hwf => exec_clears_err_of_legal_op hwf hop _⟩

end Sys2Proof.Machine
end

section
/-! PROOFS. Reset and hazards (70_reset_and_hazards.md): a reset edge and what it discards, the end of a block's
micro-steps whatever the timing, and the host's placing of a command word. -/

namespace Sys2Proof.Machine

/-! ### A reset edge (R260, R261) -/

/-- Of all a state holds, a reset edge reads only the coming edges and the number of resets taken. -/
theorem step_of_rst_eq_resetWith {s : State} (hrst : s.edge.rst = true) :
    step s = .next (State.resetWith (s.resets + 1) s.edges.tail) := step_of_rst hrst

/-- Under `rst` = 1 no command is accepted, in any phase (10_state.md R45). -/
theorem State.cmdReady_of_rst (s : State) : s.cmdReady true = false := Bool.and_false _

/-! ### The end of a block's micro-steps (R272, R273, R274) -/

/-- CI_LOAD is the farthest phase from IDLE. -/
theorem State.microStepsLeft_le (s : State) : s.microStepsLeft ≤ 19 := by
  cases hp : s.phase with
  | idle => rw [State.microStepsLeft_of_idle hp]; omega
  | ksLoad => rw [State.microStepsLeft_of_ksLoad hp]; omega
  | ksRound => rw [State.microStepsLeft_of_ksRound hp]; omega
  | ciLoad => rw [State.microStepsLeft_of_ciLoad hp]
  | ciRound => rw [State.microStepsLeft_of_ciRound hp]; omega
  | ciSwap => rw [State.microStepsLeft_of_ciSwap hp]; omega
  | ciOut => rw [State.microStepsLeft_of_ciOut hp]; omega

theorem runMicroSteps_nineteen_phase (s : State) : (runMicroSteps 19 s).phase = .idle := by
  rw [← State.microStepsLeft_eq_zero_iff, runMicroSteps_microStepsLeft]
  exact Nat.sub_eq_zero_of_le s.microStepsLeft_le

/-- Micro-steps past the nineteenth change nothing: the block is IDLE by then. -/
theorem runMicroSteps_of_nineteen_le {n : Nat} (hn : 19 ≤ n) (s : State) :
    runMicroSteps n s = runMicroSteps 19 s := by
  rw [← Nat.add_sub_cancel' hn, runMicroSteps_add, runMicroSteps_idle _ (runMicroSteps_nineteen_phase s)]

/-- Quiet edges that make nineteen micro-steps or more leave the state nineteen leave, however they are spread. -/
theorem runSteps_quiet_nineteen {es : List Edge} (hquiet : quietEdges es) (htotal : 19 ≤ microTotal es) (s : State) :
    runSteps es.length (s.drivenBy es) = .next ((runMicroSteps 19 s).drivenBy []) := by
  rw [runSteps_quiet es s hquiet, runMicroSteps_of_nineteen_le htotal]

/-! ### The host's placing of a command word (assumption logs 9, 10) -/

theorem decodeTableWord_of_lt {w : Nat} (hw : w < 2 ^ 68) :
    decodeTableWord 68 w = some (decode (BitVec.ofNat 68 w)) := by
  rw [decodeTableWord, Nat.mod_eq_of_lt hw, decodeNat, if_pos hw]
  rfl

theorem State.withFetchWord_of_lt (s : State) {w : Nat} (hw : w < 2 ^ 68) :
    s.withFetchWord 68 w = s.presentWord (BitVec.ofNat 68 w) := by
  rw [State.withFetchWord, Nat.mod_eq_of_lt hw, State.presentNat, if_pos hw]

/-- The ports at the coming edge show the presented word whole (30_encoding.md R80). -/
theorem State.presentWord_edge_word (s : State) (w : Command) : (s.presentWord w).edge.word = w :=
  commandWord_fields w

theorem State.presentWord_consumeEdge (s : State) (w : Command) :
    (s.presentWord w).consumeEdge = { s with phase := .idle, edges := s.edges.tail } := rfl

/-- The very next edge accepts the presented word (30_encoding.md R81). -/
theorem step_presentWord (s : State) (w : Command) :
    step (s.presentWord w) = exec (decode w) { s with phase := .idle, edges := s.edges.tail } := by
  rw [step_of_accept rfl (State.presentWord_phase s w) rfl, State.presentWord_edge_word,
    State.presentWord_consumeEdge]

/-! ### The obligations of 70_reset_and_hazards.md -/

/-- Settles O8: a number below 2^68 is a command word, presented as such, and the next step accepts it. -/
theorem placedWordRunsNext : Obligations.PlacedWordRunsNext := fun s w hw =>
  ⟨decodeTableWord_of_lt hw, by rw [State.withFetchWord_of_lt s hw, step_presentWord]⟩

/-- Settles O32: no state has more than nineteen micro-steps left, and each micro-step takes one off. -/
theorem busyBlockReachesIdle : Obligations.BusyBlockReachesIdle := runMicroSteps_nineteen_phase

/-- Settles O33: both timings end in the state nineteen micro-steps leave. -/
theorem timingChangesNoValue : Obligations.TimingChangesNoValue := fun s _ _ hquiet hquiet' htotal htotal' =>
  ⟨(runMicroSteps 19 s).drivenBy [], runMicroSteps_nineteen_phase s, runSteps_quiet_nineteen hquiet htotal s,
    runSteps_quiet_nineteen hquiet' htotal' s⟩

/-- Settles O13: the state after the edge is `State.resetWith`'s, whose fields are the stated values. -/
theorem resetEdgeLeavesResetState : Obligations.ResetEdgeLeavesResetState := fun _ hrst =>
  ⟨State.cmdReady_of_rst _, _, step_of_rst_eq_resetWith hrst, rfl, fun _ => rfl, rfl, rfl, rfl, rfl⟩

/-- Settles O15: what a reset edge reads is equal in the two states. -/
theorem resetLeavesNoTrace : Obligations.ResetLeavesNoTrace := by
  intro s t hedges hresets hrst
  have hrst' : t.edge.rst = true := by rwa [State.edge, ← hedges]
  rw [step_of_rst_eq_resetWith hrst, step_of_rst_eq_resetWith hrst', hedges, hresets]

end Sys2Proof.Machine
end
